-- ==== Sys2Proof/Word.lean ====
section
/-! DEFINITION. The word types of the Plynmir W3 and their plainest arithmetic (00_scope.md R6, R8). -/

namespace Sys2Proof

/-- A 64-bit scalar, scratchpad, bulk or control word. -/
abbrev Word := BitVec 64
/-- One byte of any memory. -/
abbrev Byte := BitVec 8
/-- One 32-bit slot of a bundle (R33). -/
abbrev Slot32 := BitVec 32
/-- A 128-bit mesh word (R308). -/
abbrev MeshData := BitVec 128
/-- One long accumulator (R87). -/
abbrev Acc := BitVec 576

/-- A natural number as a 64-bit word, modulo 2^64. -/
abbrev word (n : Nat) : Word := BitVec.ofNat 64 n

end Sys2Proof
end

