-- ==== Sys2Proof/Config.lean ====
section
/-! DEFINITION. What this part fixes, and the free values: constants without a body, of which nothing can be proved
but that they exist. A statement about one holds whatever it is. -/

namespace Sys2Proof.Config

/-- Free value: the signature, r then s, that the module's identity key gives the n-th attestation report (R399). -/
opaque attestSignature : Nat → BitVec 768
/-- Free value: whether the ECDSA P-384 signature of a firmware image verifies against the fused key hash (R398). -/
opaque imageVerifies : List Byte → Bool
/-- Free value: SHA-384 of the controller firmware (R399). -/
opaque controllerHash : BitVec 384
/-- Free value: SHA-384 of the Lantern firmware (R399). -/
opaque lanternHash : BitVec 384
/-- Free value: byte n of the Keavary certificate chain that stands at 0x0E_2000 (R399). -/
opaque certificateByte : Nat → Byte

/-- Free value: what FADDR receives when SADV names a window that is not streaming, which has no BASE (R245). -/
opaque sadvBase : Nat → Word

/-- Free value: the energy in nJ that the cluster at a site drew in one microsecond, by the reading of the rail telemetry
(R357). -/
opaque railEnergy : (site reading : Nat) → Nat

/-- Free value: which latency of 7 to 24 the detour around a retired gateway takes (R323). -/
opaque detourLat : (site edge gate : Nat) → Fin 18

/-- Architecture generation (R1). -/
def gen : Nat := 3
/-- Instruction-set revision (R1). -/
def isaRev : Nat := 3
/-- First byte address past the scratchpad (R184). -/
def spSize : Nat := 0x200000
/-- First byte address past the tile code store (R42). -/
def codeSize : Nat := 0x40000
/-- First byte address past Taper memory (R267). -/
def taperSize : Nat := 0x40000
/-- Lantern SRAM size (R284). -/
def sramSize : Nat := 0x100000
/-- First device physical address past the 80 slices (R220, R385). -/
def dpaEnd : Nat := 80 * 0x100000000
/-- Scratchpad address of launch argument word 0 (R108). -/
def argBase : Nat := 0x1FFFC0
/-- Stall-tree latency in reference cycles (R25, R28). -/
def treeLatency : Nat := 96

end Sys2Proof.Config
end

