-- ==== Sys2Proof/Syntax.lean ====
section
/-! DEFINITION. The instruction set of the tiles and Lanterns and the events of the module: one constructor of
`Instr` for each row of spec/opcode_table.json. A slot instruction carries its guard predicate (R33, R35); its stop
bit belongs to the bundle and not to the instruction, so the encoder takes it separately. -/

namespace Sys2Proof

/-- A 6-bit S operand (R44): an s register, an o register, or the latch l (a source only). -/
inductive SOp where
  | s (n : Fin 48)
  | o (n : Fin 8)
  | l
  deriving DecidableEq, Repr

/-- The guarding predicate of a slot, q0 to q15 (R33, R35). -/
abbrev Guard := Fin 16

/-- Compare conditions (R120). -/
inductive Cond where
  | eq | ne | lt | ge | ltu | geu
  deriving DecidableEq, Repr

/-- The four PLOG operations (R121). -/
inductive PlogOp where
  | and | or | xor | andn
  deriving DecidableEq, Repr

/-- V element types in the order of their codes (R47). -/
inductive VType where
  | i8 | n8 | i16 | n16 | i32 | bf16 | f16 | f32
  deriving DecidableEq, Repr

/-- VRED functions (R196). -/
inductive RedFn where
  | add | min | max | and | or | xor
  deriving DecidableEq, Repr

/-- VREDX functions (R196). -/
inductive RedxFn where
  | min | max
  deriving DecidableEq, Repr

/-- MMULB group sizes 4, 8 and 16 (R48). -/
inductive GroupSize where
  | g4 | g8 | g16
  deriving DecidableEq, Repr

/-- The word of a generator that AGRD reads (R151). -/
inductive AgWord where
  | p | c | s | pos
  deriving DecidableEq, Repr

/-- Register bank states in the order of their codes (R106, R359). -/
inductive BankState where
  | on | ret | off
  deriving DecidableEq, Repr

/-- The two switchable register banks (R102). -/
inductive BankSel where
  | bank1 | bank2
  deriving DecidableEq, Repr

/-- The operation of EVSIG and SIGNAL (R291, R301). -/
inductive EvOp where
  | set | add | max
  deriving DecidableEq, Repr

/-- What executes slots: a tile of a placed region, by its place in the model's list of tiles, or a Lantern. -/
inductive Agent where
  | tile (i : Nat)
  | lantern (n : Fin 4)
  deriving DecidableEq, Repr

/-- A corruption of one slice partial of one output (R167): the partial as formed, in units of 2^-256. -/
structure Residue where
  z : Fin 2
  step : Nat
  row : Fin 32
  col : Fin 32
  slice : Fin 4
  formed : Int
  deriving DecidableEq, Repr

/-- What a soft error strikes: a stored word (R43, R190, R242, R267, R285) or a partial sum of the array (R167). -/
inductive ErrTarget where
  | scratch (tile addr : Nat)
  | code (tile addr : Nat)
  | taper (tile addr : Nat)
  | dram (dpa : Nat)
  | host (addr : Nat)
  | sram (n : Fin 4) (addr : Nat)
  | array (tile : Nat) (e : Residue)
  deriving DecidableEq, Repr

/-- What a soft error leaves in the word (R190): a correctable error, or an uncorrectable one and the data bits
that the array then holds. -/
inductive ErrKind where
  | correctable
  | uncorrectable (data : Word)
  deriving DecidableEq, Repr

/-- The instructions and events of spec/opcode_table.json. -/
inductive Instr where
  -- S class, R113 to R136
  | nop (g : Guard)
  | add (g : Guard) (d a b : SOp)
  | sub (g : Guard) (d a b : SOp)
  | and (g : Guard) (d a b : SOp)
  | or (g : Guard) (d a b : SOp)
  | xor (g : Guard) (d a b : SOp)
  | shl (g : Guard) (d a b : SOp)
  | shr (g : Guard) (d a b : SOp)
  | sra (g : Guard) (d a b : SOp)
  | min (g : Guard) (d a b : SOp)
  | max (g : Guard) (d a b : SOp)
  | minu (g : Guard) (d a b : SOp)
  | maxu (g : Guard) (d a b : SOp)
  | mul (g : Guard) (d a b : SOp)
  | mulh (g : Guard) (d a b : SOp)
  | mulhu (g : Guard) (d a b : SOp)
  | div (g : Guard) (d a b : SOp)
  | divu (g : Guard) (d a b : SOp)
  | rem (g : Guard) (d a b : SOp)
  | remu (g : Guard) (d a b : SOp)
  | addi (g : Guard) (d a : SOp) (imm : BitVec 6)
  | andi (g : Guard) (d a : SOp) (imm : BitVec 6)
  | ori (g : Guard) (d a : SOp) (imm : BitVec 6)
  | xori (g : Guard) (d a : SOp) (imm : BitVec 6)
  | shli (g : Guard) (d a : SOp) (imm : BitVec 6)
  | shri (g : Guard) (d a : SOp) (imm : BitVec 6)
  | srai (g : Guard) (d a : SOp) (imm : BitVec 6)
  | li (g : Guard) (d : SOp) (imm : BitVec 12)
  | lis (g : Guard) (d : SOp) (imm : BitVec 12)
  | sel (q : Guard) (d a b : SOp)
  | clz (g : Guard) (d a : SOp)
  | popc (g : Guard) (d a : SOp)
  | cmp (g : Guard) (k : Fin 8) (c : Cond) (a b : SOp)
  | cmpi (g : Guard) (k : Fin 8) (c : Cond) (a : SOp) (imm : BitVec 6)
  | plog (g : Guard) (k : Fin 8) (op : PlogOp) (x y : Fin 16)
  | pbt (g : Guard) (b : Fin 4) (imm : BitVec 16)
  | pbr (g : Guard) (b : Fin 4) (a : SOp)
  | br (g : Guard) (b : Fin 4)
  | call (g : Guard) (b : Fin 4)
  | ret (g : Guard)
  | jal (g : Guard) (b : Fin 4) (imm : BitVec 16)
  | jr (g : Guard) (b : Fin 4)
  | loop (g : Guard) (a : SOp) (n : BitVec 12)
  | ldB (g : Guard) (d a : SOp) (imm : BitVec 6)
  | ldH (g : Guard) (d a : SOp) (imm : BitVec 6)
  | ldW (g : Guard) (d a : SOp) (imm : BitVec 6)
  | ldD (g : Guard) (d a : SOp) (imm : BitVec 6)
  | ldBU (g : Guard) (d a : SOp) (imm : BitVec 6)
  | ldHU (g : Guard) (d a : SOp) (imm : BitVec 6)
  | ldWU (g : Guard) (d a : SOp) (imm : BitVec 6)
  | stB (g : Guard) (d a : SOp) (imm : BitVec 6)
  | stH (g : Guard) (d a : SOp) (imm : BitVec 6)
  | stW (g : Guard) (d a : SOp) (imm : BitVec 6)
  | stD (g : Guard) (d a : SOp) (imm : BitVec 6)
  | atomAdd (g : Guard) (d a b : SOp)
  | atomMin (g : Guard) (d a b : SOp)
  | atomMax (g : Guard) (d a b : SOp)
  | atomAnd (g : Guard) (d a b : SOp)
  | atomOr (g : Guard) (d a b : SOp)
  | atomXor (g : Guard) (d a b : SOp)
  | atomSwap (g : Guard) (d a b : SOp)
  | cas (g : Guard) (d a b : SOp)
  | mfs (g : Guard) (d : SOp) (idx : BitVec 12)
  | mts (g : Guard) (idx : BitVec 12) (a : SOp)
  -- V class, R193 to R218
  | vnop (g : Guard)
  | vadd (g : Guard) (t : VType) (m : Fin 8) (d a b : Fin 16)
  | vsub (g : Guard) (t : VType) (m : Fin 8) (d a b : Fin 16)
  | vmul (g : Guard) (t : VType) (m : Fin 8) (d a b : Fin 16)
  | vfma (g : Guard) (t : VType) (m : Fin 8) (d a b : Fin 16)
  | vmin (g : Guard) (t : VType) (m : Fin 8) (d a b : Fin 16)
  | vmax (g : Guard) (t : VType) (m : Fin 8) (d a b : Fin 16)
  | vabs (g : Guard) (t : VType) (m : Fin 8) (d a : Fin 16)
  | vneg (g : Guard) (t : VType) (m : Fin 8) (d a : Fin 16)
  | vadds (g : Guard) (t : VType) (m : Fin 8) (d a b : Fin 16)
  | vsubs (g : Guard) (t : VType) (m : Fin 8) (d a b : Fin 16)
  | vand (g : Guard) (t : VType) (m : Fin 8) (d a b : Fin 16)
  | vor (g : Guard) (t : VType) (m : Fin 8) (d a b : Fin 16)
  | vxor (g : Guard) (t : VType) (m : Fin 8) (d a b : Fin 16)
  | vshl (g : Guard) (t : VType) (m : Fin 8) (d a b : Fin 16)
  | vshr (g : Guard) (t : VType) (m : Fin 8) (d a b : Fin 16)
  | vsra (g : Guard) (t : VType) (m : Fin 8) (d a b : Fin 16)
  | vcmpeq (g : Guard) (t : VType) (m : Fin 8) (k : Fin 8) (a b : Fin 16)
  | vcmpne (g : Guard) (t : VType) (m : Fin 8) (k : Fin 8) (a b : Fin 16)
  | vcmplt (g : Guard) (t : VType) (m : Fin 8) (k : Fin 8) (a b : Fin 16)
  | vcmple (g : Guard) (t : VType) (m : Fin 8) (k : Fin 8) (a b : Fin 16)
  | vsel (g : Guard) (t : VType) (m : Fin 8) (d a b : Fin 16)
  | vcvt (g : Guard) (t : VType) (m : Fin 8) (d a : Fin 16) (st : VType)
  | vexp2 (g : Guard) (t : VType) (m : Fin 8) (d a : Fin 16)
  | vlog2 (g : Guard) (t : VType) (m : Fin 8) (d a : Fin 16)
  | vrcp (g : Guard) (t : VType) (m : Fin 8) (d a : Fin 16)
  | vrsq (g : Guard) (t : VType) (m : Fin 8) (d a : Fin 16)
  | vsqrt (g : Guard) (t : VType) (m : Fin 8) (d a : Fin 16)
  | vred (g : Guard) (t : VType) (m : Fin 8) (k : Fin 8) (a : Fin 16) (fn : RedFn)
  | vredx (g : Guard) (t : VType) (m : Fin 8) (k : Fin 8) (a : Fin 16) (fn : RedxFn)
  | vscan (g : Guard) (t : VType) (m : Fin 8) (d a : Fin 16) (k : Fin 8)
  | vcomp (g : Guard) (t : VType) (m : Fin 8) (d a : Fin 16) (k : Fin 8)
  | vexpd (g : Guard) (t : VType) (m : Fin 8) (d a : Fin 16) (k : Fin 8)
  | vperm (g : Guard) (t : VType) (m : Fin 8) (d a b : Fin 16)
  | vbcast (g : Guard) (t : VType) (m : Fin 8) (d : Fin 16) (k : Fin 8)
  | vmov (g : Guard) (t : VType) (m : Fin 8) (d a : Fin 16)
  | viota (g : Guard) (t : VType) (m : Fin 8) (d : Fin 16) (k : Fin 8)
  | vany (g : Guard) (t : VType) (m : Fin 8) (k : Fin 8) (a : Fin 16)
  | vall (g : Guard) (t : VType) (m : Fin 8) (k : Fin 8) (a : Fin 16)
  | vpopm (g : Guard) (t : VType) (m : Fin 8) (k : Fin 8) (j : Fin 8)
  | vmask (g : Guard) (t : VType) (m : Fin 8) (k : Fin 8) (a : Fin 16)
  | vrand (g : Guard) (t : VType) (m : Fin 8) (d : Fin 16) (k1 k2 : Fin 8)
  | vsrt (g : Guard) (t : VType) (m : Fin 8) (d a : Fin 16)
  | vmrg (g : Guard) (t : VType) (m : Fin 8) (d a b : Fin 16)
  | vgath (g : Guard) (t : VType) (m : Fin 8) (d a b : Fin 16)
  | vscat (g : Guard) (t : VType) (m : Fin 8) (d a b : Fin 16)
  -- M class, R173 to R182
  | mnop (g : Guard)
  | mclr (g : Guard) (z : Fin 2)
  | mmul (g : Guard) (z : Fin 2) (pair : Fin 4) (ha hb n : Fin 32)
  | mmulb (g : Guard) (z : Fin 2) (grp : GroupSize) (ha hb : Fin 32) (a : Fin 16)
  | mout (g : Guard) (z : Fin 2) (pair : Fin 4) (h : Fin 32)
  | moutr (g : Guard) (z : Fin 2) (pair : Fin 4) (h : Fin 32)
  | maddr (g : Guard) (z : Fin 2) (pair : Fin 4) (h : Fin 32)
  | mpack (g : Guard) (hp he n : Fin 32)
  | munpk (g : Guard) (he hp n : Fin 32)
  | mstat (g : Guard) (z : Fin 2) (h : Fin 32)
  -- C class, R241 to R247
  | cnop (g : Guard)
  | cpyin (g : Guard) (h : Fin 32)
  | cpyout (g : Guard) (h : Fin 32)
  | cpyloc (g : Guard) (hd hs : Fin 32)
  | stage (g : Guard) (h : Fin 32) (c a : SOp)
  | sadv (g : Guard) (w : Fin 16) (p : Fin 2)
  | publish (g : Guard)
  | catom (g : Guard) (v o c : SOp)
  | cfill (g : Guard) (h : Fin 32) (a : SOp)
  -- K class, R148 to R157
  | knop (g : Guard)
  | agset (g : Guard) (n : Fin 16) (p c : SOp)
  | agstr (g : Guard) (n : Fin 16) (s : SOp)
  | agout (g : Guard) (d : SOp) (n : Fin 16)
  | agadd (g : Guard) (n : Fin 16) (a : SOp)
  | agrd (g : Guard) (d : SOp) (n : Fin 16) (w : AgWord)
  | agblk (g : Guard) (n : Fin 16) (w : Fin 4)
  | hld (g : Guard) (h : Fin 32) (a : SOp)
  | hst (g : Guard) (h : Fin 32) (a : SOp)
  | hsetf (g : Guard) (h : Fin 32) (f : Fin 19) (a : SOp)
  | hgetf (g : Guard) (d : SOp) (f : Fin 19) (h : Fin 32)
  | scl (g : Guard) (k : Fin 4) (a : SOp)
  | ymset (g : Guard) (n : Fin 4) (a : SOp)
  | xmset (g : Guard) (n : Fin 4) (a : SOp)
  | vmset (g : Guard) (n : Fin 8) (a : SOp)
  | vmget (g : Guard) (d : SOp) (n : Fin 8)
  | mkget (g : Guard) (d : SOp) (n : Fin 8)
  -- L class, R316 to R322
  | lnop (g : Guard)
  | route (g : Guard) (e : Fin 16) (c : BitVec 14)
  | rtset (g : Guard) (e : Fin 16) (a : SOp)
  | send (g : Guard) (a : Fin 16) (k : Fin 4)
  | recv (g : Guard) (a : Fin 16) (k : Fin 4) (chk lnk : Bool)
  | ratom (g : Guard) (c o : SOp)
  | rld (g : Guard) (c : SOp)
  | tagset (g : Guard) (tag : BitVec 8) (sel : Fin 4)
  -- X class on tiles, and shared
  | xnop (g : Guard)
  | trap (g : Guard) (n : BitVec 8)
  | rdcyc (g : Guard) (d : SOp)
  | rdwall (g : Guard) (d : SOp)
  | waitsImm (g : Guard) (n : BitVec 17)
  | waitsReg (g : Guard) (a : SOp)
  | waitw (g : Guard) (j : Fin 8)
  | realign (g : Guard)
  | clkdiv (g : Guard) (dc dm dv dk : Fin 8)
  | pswitch (g : Guard) (n : BitVec 12)
  | fidset (g : Guard) (level : Fin 8)
  | wchk (g : Guard) (w : Fin 16) (p : Fin 2) (lead : BitVec 13)
  | repb (g : Guard) (n : BitVec 12)
  | trec (g : Guard)
  | tend (g : Guard)
  | halt (g : Guard)
  | bankpwr (g : Guard) (b : BankSel) (st : BankState)
  -- X class on Lanterns, R300 to R307
  | launch (g : Guard) (d a : SOp)
  | evwait (g : Guard) (d e v : SOp)
  | evsig (g : Guard) (op : EvOp) (e v : SOp)
  | lda (g : Guard) (d a : SOp)
  | stl (g : Guard) (d a : SOp)
  | fence (g : Guard) (t : Bool)
  | clrun (g : Guard) (d a b : SOp)
  | preempt (g : Guard) (d a b : SOp)
  | resume (g : Guard) (d a b : SOp)
  | kill (g : Guard) (d a : SOp)
  | lease (g : Guard) (d a b : SOp)
  | eret (g : Guard)
  | wread (g : Guard) (a c s : SOp)
  -- events of cores, tiles and regions
  | lanternLoadReturn (n : Fin 4) (k : Nat)
  | evwaitWake (n : Fin 4)
  | resultLands (a : Agent)
  | matrixStepLands (t : Nat)
  | waitsExpiry (t : Nat)
  | waitwRelease (r : Nat)
  | realignHoldEnd (r c : Nat)
  | bankWake (t : Nat)
  | routeActExpiry (t : Nat)
  | meshWordArrival (t : Nat)
  | remoteAccessService (t : Nat)
  | seamBufferRelease (t : Nat)
  | windowCheckEval (t : Nat) (w : Fin 16)
  | regionFreeze (r : Nat)
  | regionRelease (r : Nat)
  | faultHalt (r : Nat)
  | retry (r : Nat)
  | copyLanding (t k : Nat)
  | slotFillLands (t : Nat) (w : Fin 16) (slot : Fin 2)
  | slotDrainLands (t : Nat) (w : Fin 16) (slot : Fin 2)
  | publishMerge (r : Nat)
  | publishPropagated (r : Nat)
  | lamplighterSample (r : Nat)
  | grantLatch (r c : Nat)
  | leaseExpiry (id : Nat)
  | energyUpdate (nj : Nat)
  | preemptEscalate (r : Nat)
  | saveComplete (id : Nat)
  | schedulerDecision
  | launchLoad (id : Nat)
  | regionStart (r : Nat)
  | replayCmdIssue (t : Nat)
  | tapeEndResume (t : Nat)
  | launchComplete (r : Nat)
  | completionEvent (id : Nat)
  | tapeSetCopy (id : Nat)
  -- queue and command-list events
  | qtailWrite (q : Fin 20) (v : Word)
  | queueEnable (q : Fin 20)
  | queueDisable (q : Fin 20)
  | queueRestart (q : Fin 20)
  | launchEntry (q : Fin 20)
  | waitEntry (q : Fin 20)
  | signalEntry (q : Fin 20)
  | skipif (q : Fin 20)
  | jump (q : Fin 20)
  | callEntry (q : Fin 20)
  | returnEntry (q : Fin 20)
  | copyEntry (q : Fin 20)
  | copyComplete (k : Nat)
  | witnessEntry (q : Fin 20)
  | endEntry (q : Fin 20)
  | entryUnblock (q : Fin 20)
  -- host and module events
  | attestReportDone
  | linkRetryExhausted (p : Fin 32)
  | ptpSyncTimeout
  | powerOnBoot
  | lanternStorePerformed (n : Fin 4) (k : Nat)
  -- events that only the outside world or a failing bundle brings; they stand last because the compiler builds no value
  -- of a constructor past the 244th
  | hostEventWrite (j : Fin 1024) (v : Word)
  | hostBar2Write (off : Nat) (data : List Byte)
  | hostBar2Read (off n : Nat)
  | lanternStart (n : Fin 4)
  | lanternStop (n : Fin 4)
  | featureCommit
  | pwrcapWrite (level : Fin 8)
  | attestRequest
  | registerWrite (off : Nat) (v : Word)
  | linkUp (p : Fin 32) (peer : Byte) (delay : Nat)
  | linkDown (p : Fin 32)
  | linkFlitReceive (p : Fin 32) (flit : BitVec 256)
  | linkResend (p : Fin 32) (seq : BitVec 16)
  | linkLockLoss (p : Fin 32)
  | ptpSync (offsetPs : Int)
  | coolantChange (flow inlet : Nat)
  | inputPowerChange (level : Fin 8)
  | junctionOvertemp
  | thermalShutdown
  | functionLevelReset
  | firmwareImageVerify (image : List Byte) (version index : Nat)
  | invalidBundle
  | softError (at_ : ErrTarget) (kind : ErrKind)
  | clusterSlip (r c : Nat) (cycles : Int)
  deriving DecidableEq, Repr

end Sys2Proof
end

