-- ==== Sys2Proof/WellFormed.lean ====
section
/-! DEFINITION. The operand checks that the types of `Instr` do not make already: the reserved and out-of-range
values that take fault 0x0104 when the bundle is checked (R39). -/

namespace Sys2Proof

/-- A destination of R44: any operand but the latch l. -/
def SOp.isDst : SOp → Bool
  | .l => false
  | _ => true

/-- The floating element types (R69). -/
def VType.isFloat : VType → Bool
  | .bf16 | .f16 | .f32 => true
  | _ => false

/-- The element types of two or four bytes (R196). -/
def VType.isWide : VType → Bool
  | .i8 | .n8 => false
  | _ => true

/-- i32 and f32, the types of VRAND, VSRT and VMRG (R196). -/
def VType.isWord : VType → Bool
  | .i32 | .f32 => true
  | _ => false

/-- The VRED functions that a floating type does not have (R196). -/
def RedFn.isBitwise : RedFn → Bool
  | .and | .or | .xor => true
  | _ => false

/-- The special registers that both kinds of core have (R103): GEN, ISAREV, LDEPTH, LCNT, LRNG and B. -/
def sregShared (x : Nat) : Bool :=
  x == 0x050 || x == 0x051 || x == 0x080 || (0x088 ≤ x && x ≤ 0x08F) || (0x090 ≤ x && x ≤ 0x097) ||
    (0x0A0 ≤ x && x ≤ 0x0A3)

/-- The special registers of tiles alone (R103). -/
def sregTile (x : Nat) : Bool :=
  x ≤ 0x003 || (0x010 ≤ x && x ≤ 0x017) || (0x020 ≤ x && x ≤ 0x025) || x == 0x030 || x == 0x031 || x == 0x040 ||
    x == 0x041 || (0x060 ≤ x && x ≤ 0x065) || x == 0x070 || x == 0x071

/-- LNID, of Lanterns alone (R103). -/
def sregLantern (x : Nat) : Bool := x == 0x004

/-- An index that some core has (R103). -/
def sregAssigned (idx : BitVec 12) : Bool := sregShared idx.toNat || sregTile idx.toNat || sregLantern idx.toNat

/-- The operand checks of R39 that the syntax leaves: destinations that are not l (R44), predicate pairs from 1 to 7
(R46, R196), mask destinations from m1 to m7 (R145, R196), listed V types and functions (R196), and the ranges that
single entries state. -/
def Instr.wf : Instr → Bool
  | .add _ d _ _ | .sub _ d _ _ | .and _ d _ _ | .or _ d _ _ | .xor _ d _ _ | .shl _ d _ _ | .shr _ d _ _
  | .sra _ d _ _ | .min _ d _ _ | .max _ d _ _ | .minu _ d _ _ | .maxu _ d _ _ | .mul _ d _ _ | .mulh _ d _ _
  | .mulhu _ d _ _ | .div _ d _ _ | .divu _ d _ _ | .rem _ d _ _ | .remu _ d _ _ | .sel _ d _ _
  | .atomAdd _ d _ _ | .atomMin _ d _ _ | .atomMax _ d _ _ | .atomAnd _ d _ _ | .atomOr _ d _ _
  | .atomXor _ d _ _ | .atomSwap _ d _ _ | .cas _ d _ _ => d.isDst
  | .addi _ d _ _ | .andi _ d _ _ | .ori _ d _ _ | .xori _ d _ _ | .shli _ d _ _ | .shri _ d _ _ | .srai _ d _ _
  | .ldB _ d _ _ | .ldH _ d _ _ | .ldW _ d _ _ | .ldD _ d _ _ | .ldBU _ d _ _ | .ldHU _ d _ _
  | .ldWU _ d _ _ => d.isDst
  | .li _ d _ | .lis _ d _ | .clz _ d _ | .popc _ d _ => d.isDst
  | .mfs _ d idx => d.isDst && sregAssigned idx
  | .mts _ idx _ => sregAssigned idx
  | .cmp _ k _ _ _ | .cmpi _ k _ _ _ | .plog _ k _ _ _ => k != 0
  | .loop _ _ n => n != 0
  | .vadds _ t .. | .vsubs _ t .. | .vshl _ t .. | .vshr _ t .. | .vsra _ t .. | .viota _ t .. => !t.isFloat
  | .vcmpeq _ _ _ k _ _ | .vcmpne _ _ _ k _ _ | .vcmplt _ _ _ k _ _ | .vcmple _ _ _ k _ _
  | .vmask _ _ _ k _ | .vany _ _ _ k _ | .vall _ _ _ k _ => k != 0
  | .vcvt _ t _ _ _ st => st != t
  | .vexp2 _ t .. | .vlog2 _ t .. | .vrcp _ t .. | .vrsq _ t .. | .vsqrt _ t .. => t.isFloat
  | .vred _ t _ _ _ fn => !(t.isFloat && fn.isBitwise)
  | .vrand _ t .. | .vsrt _ t .. | .vmrg _ t .. => t.isWord
  | .vgath _ t .. | .vscat _ t .. => t.isWide
  | .agout _ d _ | .agrd _ d _ _ | .hgetf _ d _ _ | .vmget _ d _ | .mkget _ d _ => d.isDst
  | .vmset _ n _ => n != 0
  | .recv _ _ _ chk lnk => chk || !lnk
  | .tagset _ _ target => target != 0
  | .rdcyc _ d | .rdwall _ d => d.isDst
  | .pswitch _ n | .repb _ n => n != 0
  | .launch _ d _ | .evwait _ d _ _ | .lda _ d _ | .clrun _ d _ _ | .preempt _ d _ _ | .resume _ d _ _
  | .kill _ d _ | .lease _ d _ _ => d.isDst
  | _ => true

end Sys2Proof
end

