-- ==== Sys2Proof/Decode.lean ====
section
/-! DEFINITION. The decoder of one 32-bit slot and of one bundle (R33 to R54), total on any word and rejecting by
name, and after it the encoder written from the same tables. Fields are read with natural-number division, so that
the two directions meet in plain arithmetic. -/

namespace Sys2Proof

/-- Why a slot is no instruction, with the fault of R39 that each reason takes. -/
inductive Reject where
  /-- Class 7 (R34): fault 0x0101. -/
  | class7
  /-- An opcode that the class does not assign (R51 to R54): fault 0x0103. -/
  | unassigned
  /-- An operand field that is reserved, non-zero where unused, or out of range (R44 to R50): fault 0x0104. -/
  | badOperand
  deriving DecidableEq, Repr

/-- The fault code of a rejected slot (R39). -/
def Reject.code : Reject → Nat
  | .class7 => 0x0101
  | .unassigned => 0x0103
  | .badOperand => 0x0104

/-- The two kinds of core (R34). -/
inductive CoreKind where
  | tile | lantern
  deriving DecidableEq, Repr

/-! ## Codes of the operand kinds -/

/-- The 6-bit code of an S operand (R44). -/
def SOp.code : SOp → Nat
  | .s n => n.val
  | .o n => 48 + n.val
  | .l => 56

/-- The S operand of a 6-bit code; codes 57 to 63 name none (R44). -/
def SOp.ofCode (n : Nat) : Option SOp :=
  if h : n < 48 then some (.s ⟨n, h⟩)
  else if h : n - 48 < 8 then some (.o ⟨n - 48, h⟩)
  else if n = 56 then some .l else none

/-- Compare conditions; 6 and 7 name none (R46, R120). -/
def Cond.code : Cond → Nat
  | .eq => 0 | .ne => 1 | .lt => 2 | .ge => 3 | .ltu => 4 | .geu => 5

def Cond.ofCode : Nat → Option Cond
  | 0 => some .eq | 1 => some .ne | 2 => some .lt | 3 => some .ge | 4 => some .ltu | 5 => some .geu | _ => none

/-- PLOG operations (R46). -/
def PlogOp.code : PlogOp → Nat
  | .and => 0 | .or => 1 | .xor => 2 | .andn => 3

def PlogOp.ofCode : Nat → Option PlogOp
  | 0 => some .and | 1 => some .or | 2 => some .xor | 3 => some .andn | _ => none

/-- V type codes (R47). -/
def VType.code : VType → Nat
  | .i8 => 0 | .n8 => 1 | .i16 => 2 | .n16 => 3 | .i32 => 4 | .bf16 => 5 | .f16 => 6 | .f32 => 7

def VType.ofCode : Nat → Option VType
  | 0 => some .i8 | 1 => some .n8 | 2 => some .i16 | 3 => some .n16 | 4 => some .i32 | 5 => some .bf16
  | 6 => some .f16 | 7 => some .f32 | _ => none

/-- VRED function codes (R196). -/
def RedFn.code : RedFn → Nat
  | .add => 0 | .min => 1 | .max => 2 | .and => 3 | .or => 4 | .xor => 5

def RedFn.ofCode : Nat → Option RedFn
  | 0 => some .add | 1 => some .min | 2 => some .max | 3 => some .and | 4 => some .or | 5 => some .xor | _ => none

/-- VREDX function codes (R196). -/
def RedxFn.code : RedxFn → Nat
  | .min => 0 | .max => 1

def RedxFn.ofCode : Nat → Option RedxFn
  | 0 => some .min | 1 => some .max | _ => none

/-- MMULB group-size codes; 3 is reserved (R48). -/
def GroupSize.code : GroupSize → Nat
  | .g4 => 0 | .g8 => 1 | .g16 => 2

def GroupSize.ofCode : Nat → Option GroupSize
  | 0 => some .g4 | 1 => some .g8 | 2 => some .g16 | _ => none

/-- AGRD word codes (R151). -/
def AgWord.code : AgWord → Nat
  | .p => 0 | .c => 1 | .s => 2 | .pos => 3

def AgWord.ofCode : Nat → Option AgWord
  | 0 => some .p | 1 => some .c | 2 => some .s | 3 => some .pos | _ => none

/-- Bank-state codes (R359). -/
def BankState.code : BankState → Nat
  | .on => 0 | .ret => 1 | .off => 2

def BankState.ofCode : Nat → Option BankState
  | 0 => some .on | 1 => some .ret | 2 => some .off | _ => none

/-- Bank codes; bank 0 cannot be switched (R359). -/
def BankSel.code : BankSel → Nat
  | .bank1 => 1 | .bank2 => 2

def BankSel.ofCode : Nat → Option BankSel
  | 1 => some .bank1 | 2 => some .bank2 | _ => none

/-- EVSIG operation codes (R301). -/
def EvOp.code : EvOp → Nat
  | .set => 0 | .add => 1 | .max => 2

def EvOp.ofCode : Nat → Option EvOp
  | 0 => some .set | 1 => some .add | 2 => some .max | _ => none

/-! ## Operand formats (R45, R47 to R50) -/

/-- The three 6-bit fields of an operand word (R45, R49). -/
def f3 (a b c : Nat) : Nat := a * 4096 + b * 64 + c
def fld1 (o : Nat) : Nat := o / 4096
def fld2 (o : Nat) : Nat := o / 64 % 64
def fld3 (o : Nat) : Nat := o % 64

/-- An instruction if the checks hold, and fault 0x0104 if not. -/
def okIf (c : Bool) (i : Instr) : Except Reject Instr :=
  if c then .ok i else .error .badOperand

/-- Reads one S operand. -/
def withS (code : Nat) (k : SOp → Except Reject Instr) : Except Reject Instr :=
  match SOp.ofCode code with
  | some x => k x
  | none => .error .badOperand

/-- Reads a register index of a kind with n registers. -/
def withFin (n : Nat) (code : Nat) (k : Fin n → Except Reject Instr) : Except Reject Instr :=
  if h : code < n then k ⟨code, h⟩ else .error .badOperand

/-- Reads a value of an enumerated kind. -/
def withEnum {α : Type} (x : Option α) (k : α → Except Reject Instr) : Except Reject Instr :=
  match x with
  | some v => k v
  | none => .error .badOperand

def zeroF (o : Nat) (i : Instr) : Except Reject Instr := okIf (o == 0) i
def rF (o : Nat) (k : SOp → SOp → SOp → Instr) : Except Reject Instr :=
  withS (fld1 o) fun d => withS (fld2 o) fun a => withS (fld3 o) fun b => .ok (k d a b)
def uF (o : Nat) (k : SOp → SOp → Instr) : Except Reject Instr :=
  withS (fld1 o) fun d => withS (fld2 o) fun a => okIf (fld3 o == 0) (k d a)
def riF (o : Nat) (k : SOp → SOp → BitVec 6 → Instr) : Except Reject Instr :=
  withS (fld1 o) fun d => withS (fld2 o) fun a => .ok (k d a (BitVec.ofNat 6 (fld3 o)))
def liF (o : Nat) (k : SOp → BitVec 12 → Instr) : Except Reject Instr :=
  withS (fld1 o) fun d => .ok (k d (BitVec.ofNat 12 (o % 4096)))
def lpF (o : Nat) (k : SOp → BitVec 12 → Instr) : Except Reject Instr := liF o k
def cF (o : Nat) (k : Fin 8 → Cond → SOp → SOp → Instr) : Except Reject Instr :=
  withFin 8 (o / 32768) fun p => withEnum (Cond.ofCode (o / 4096 % 8)) fun c =>
    withS (fld2 o) fun a => withS (fld3 o) fun b => .ok (k p c a b)
def ciF (o : Nat) (k : Fin 8 → Cond → SOp → BitVec 6 → Instr) : Except Reject Instr :=
  withFin 8 (o / 32768) fun p => withEnum (Cond.ofCode (o / 4096 % 8)) fun c =>
    withS (fld2 o) fun a => .ok (k p c a (BitVec.ofNat 6 (fld3 o)))
def pF (o : Nat) (k : Fin 8 → PlogOp → Fin 16 → Fin 16 → Instr) : Except Reject Instr :=
  withFin 8 (o / 32768) fun p => withEnum (PlogOp.ofCode (o / 8192 % 4)) fun op =>
    withFin 16 (o / 512 % 16) fun x => withFin 16 (o / 32 % 16) fun y => okIf (o % 32 == 0) (k p op x y)
def bF (o : Nat) (k : Fin 4 → BitVec 16 → Instr) : Except Reject Instr :=
  withFin 4 (o / 65536) fun b => .ok (k b (BitVec.ofNat 16 (o % 65536)))
def bsF (o : Nat) (k : Fin 4 → SOp → Instr) : Except Reject Instr :=
  withFin 4 (o / 65536) fun b => withS (fld2 o) fun a => okIf (o / 4096 % 16 == 0 && fld3 o == 0) (k b a)
def boF (o : Nat) (k : Fin 4 → Instr) : Except Reject Instr :=
  withFin 4 (o / 65536) fun b => okIf (o % 65536 == 0) (k b)

/-- The V operand word (R47). -/
def vop (t : VType) (m : Fin 8) (d a b : Nat) : Nat :=
  t.code * 32768 + m.val * 4096 + d * 256 + a * 16 + b

/-- Type and mask, then the three 4-bit fields, each below the number of registers of its kind. -/
def vF (o nd na nb : Nat) (k : VType → Fin 8 → Fin nd → Fin na → Fin nb → Instr) : Except Reject Instr :=
  withEnum (VType.ofCode (o / 32768)) fun t => withFin 8 (o / 4096 % 8) fun m =>
    withFin nd (o / 256 % 16) fun d => withFin na (o / 16 % 16) fun a => withFin nb (o % 16) fun b => .ok (k t m d a b)
def vGGG (o : Nat) (k : VType → Fin 8 → Fin 16 → Fin 16 → Fin 16 → Instr) : Except Reject Instr := vF o 16 16 16 k
def vGGZ (o : Nat) (k : VType → Fin 8 → Fin 16 → Fin 16 → Instr) : Except Reject Instr :=
  vF o 16 16 1 fun t m d a _ => k t m d a
def vMGG (o : Nat) (k : VType → Fin 8 → Fin 8 → Fin 16 → Fin 16 → Instr) : Except Reject Instr := vF o 8 16 16 k
def vGGO (o : Nat) (k : VType → Fin 8 → Fin 16 → Fin 16 → Fin 8 → Instr) : Except Reject Instr := vF o 16 16 8 k
def vGOZ (o : Nat) (k : VType → Fin 8 → Fin 16 → Fin 8 → Instr) : Except Reject Instr :=
  vF o 16 8 1 fun t m d a _ => k t m d a
def vMGZ (o : Nat) (k : VType → Fin 8 → Fin 8 → Fin 16 → Instr) : Except Reject Instr :=
  vF o 8 16 1 fun t m d a _ => k t m d a
def vMMZ (o : Nat) (k : VType → Fin 8 → Fin 8 → Fin 8 → Instr) : Except Reject Instr :=
  vF o 8 8 1 fun t m d a _ => k t m d a
def vGOO (o : Nat) (k : VType → Fin 8 → Fin 16 → Fin 8 → Fin 8 → Instr) : Except Reject Instr := vF o 16 8 8 k
def vGGT (o : Nat) (k : VType → Fin 8 → Fin 16 → Fin 16 → VType → Instr) : Except Reject Instr :=
  withEnum (VType.ofCode (o % 16)) fun st => vF o 16 16 16 fun t m d a _ => k t m d a st
def vRed (o : Nat) (k : VType → Fin 8 → Fin 8 → Fin 16 → RedFn → Instr) : Except Reject Instr :=
  withEnum (RedFn.ofCode (o % 16)) fun fn => vF o 8 16 16 fun t m d a _ => k t m d a fn
def vRedx (o : Nat) (k : VType → Fin 8 → Fin 8 → Fin 16 → RedxFn → Instr) : Except Reject Instr :=
  withEnum (RedxFn.ofCode (o % 16)) fun fn => vF o 8 16 16 fun t m d a _ => k t m d a fn

/-- The M operand word (R48). -/
def mop (z p ha hb n : Nat) : Nat := z * 131072 + p * 32768 + ha * 1024 + hb * 32 + n

def mF (o nz np na nb nn : Nat) (k : Fin nz → Fin np → Fin na → Fin nb → Fin nn → Instr) : Except Reject Instr :=
  withFin nz (o / 131072) fun z => withFin np (o / 32768 % 4) fun p => withFin na (o / 1024 % 32) fun a =>
    withFin nb (o / 32 % 32) fun b => withFin nn (o % 32) fun n => .ok (k z p a b n)
def mZ (o : Nat) (k : Fin 2 → Instr) : Except Reject Instr := mF o 2 1 1 1 1 fun z _ _ _ _ => k z
def mMul (o : Nat) (k : Fin 2 → Fin 4 → Fin 32 → Fin 32 → Fin 32 → Instr) : Except Reject Instr := mF o 2 4 32 32 32 k
def mMulb (o : Nat) (k : Fin 2 → GroupSize → Fin 32 → Fin 32 → Fin 16 → Instr) : Except Reject Instr :=
  withEnum (GroupSize.ofCode (o / 32768 % 4)) fun g => withFin 16 (o / 2 % 16) fun a =>
    if o % 2 = 0 then mF o 2 4 32 32 32 fun z _ ha hb _ => k z g ha hb a else .error .badOperand
def mH (o : Nat) (k : Fin 2 → Fin 4 → Fin 32 → Instr) : Except Reject Instr := mF o 2 4 32 1 1 fun z p h _ _ => k z p h
def mHH (o : Nat) (k : Fin 32 → Fin 32 → Fin 32 → Instr) : Except Reject Instr :=
  mF o 1 1 32 32 32 fun _ _ a b n => k a b n
def mZH (o : Nat) (k : Fin 2 → Fin 32 → Instr) : Except Reject Instr := mF o 2 1 32 1 1 fun z _ h _ _ => k z h

/-! The C, K, L and X operand forms (R49). -/

def cH (o : Nat) (k : Fin 32 → Instr) : Except Reject Instr :=
  withFin 32 (fld1 o) fun h => okIf (o % 4096 == 0) (k h)
def cHH (o : Nat) (k : Fin 32 → Fin 32 → Instr) : Except Reject Instr :=
  withFin 32 (fld1 o) fun h => withFin 32 (fld2 o) fun h' => okIf (fld3 o == 0) (k h h')
def cHSS (o : Nat) (k : Fin 32 → SOp → SOp → Instr) : Except Reject Instr :=
  withFin 32 (fld1 o) fun h => withS (fld2 o) fun c => withS (fld3 o) fun a => .ok (k h c a)
def cSadv (o : Nat) (k : Fin 16 → Fin 2 → Instr) : Except Reject Instr :=
  withFin 16 (o % 16) fun w => withFin 2 (o / 16) fun p => .ok (k w p)
def sssF (o : Nat) (k : SOp → SOp → SOp → Instr) : Except Reject Instr := rF o k
def cHS (o : Nat) (k : Fin 32 → SOp → Instr) : Except Reject Instr :=
  withFin 32 (fld1 o) fun h => withS (fld2 o) fun a => okIf (fld3 o == 0) (k h a)
def kNSS (o n : Nat) (k : Fin n → SOp → SOp → Instr) : Except Reject Instr :=
  withFin n (fld1 o) fun h => withS (fld2 o) fun c => withS (fld3 o) fun a => .ok (k h c a)
def kNS (o n : Nat) (k : Fin n → SOp → Instr) : Except Reject Instr :=
  withFin n (fld1 o) fun h => withS (fld2 o) fun a => okIf (fld3 o == 0) (k h a)
def kDN (o n : Nat) (k : SOp → Fin n → Instr) : Except Reject Instr :=
  withS (fld1 o) fun d => withFin n (fld2 o) fun h => okIf (fld3 o == 0) (k d h)
def kAgrd (o : Nat) (k : SOp → Fin 16 → AgWord → Instr) : Except Reject Instr :=
  withS (fld1 o) fun d => withFin 16 (fld2 o) fun n => withEnum (AgWord.ofCode (fld3 o)) fun w => .ok (k d n w)
def kAgblk (o : Nat) (k : Fin 16 → Fin 4 → Instr) : Except Reject Instr :=
  withFin 16 (fld1 o) fun n => withFin 4 (fld3 o) fun w => okIf (fld2 o == 0) (k n w)
def kHsetf (o : Nat) (k : Fin 32 → Fin 19 → SOp → Instr) : Except Reject Instr :=
  withFin 32 (fld1 o) fun h => withFin 19 (fld2 o) fun f => withS (fld3 o) fun a => .ok (k h f a)
def kHgetf (o : Nat) (k : SOp → Fin 19 → Fin 32 → Instr) : Except Reject Instr :=
  withS (fld1 o) fun d => withFin 19 (fld2 o) fun f => withFin 32 (fld3 o) fun h => .ok (k d f h)
def lSend (o : Nat) (k : Fin 16 → Fin 4 → Instr) : Except Reject Instr :=
  withFin 16 (fld1 o) fun a => withFin 4 (fld2 o) fun p => okIf (fld3 o == 0) (k a p)
def lRecv (o : Nat) (k : Fin 16 → Fin 4 → Bool → Bool → Instr) : Except Reject Instr :=
  withFin 16 (fld1 o) fun a => withFin 4 (fld2 o % 4) fun p =>
    okIf (o / 64 % 64 / 16 == 0 && fld3 o == 0) (k a p (fld2 o / 4 % 2 == 1) (fld2 o / 8 % 2 == 1))
def lSS (o : Nat) (k : SOp → SOp → Instr) : Except Reject Instr := uF o k
def lS (o : Nat) (k : SOp → Instr) : Except Reject Instr := withS (fld1 o) fun c => okIf (o % 4096 == 0) (k c)
def lTag (o : Nat) (k : BitVec 8 → Fin 4 → Instr) : Except Reject Instr :=
  withFin 4 (o / 256) fun s => .ok (k (BitVec.ofNat 8 (o % 256)) s)
def immF (o bits : Nat) (i : Instr) : Except Reject Instr := okIf (o < 2 ^ bits) i
def dF (o : Nat) (k : SOp → Instr) : Except Reject Instr := lS o k
def waitsF (o : Nat) (g : Guard) : Except Reject Instr :=
  if o < 131072 then .ok (.waitsImm g (BitVec.ofNat 17 o))
  else withS (fld2 o) fun a => okIf (fld1 o == 32 && fld3 o == 0) (.waitsReg g a)
def clkF (o : Nat) (k : Fin 8 → Fin 8 → Fin 8 → Fin 8 → Instr) : Except Reject Instr :=
  withFin 8 (o % 16) fun c => withFin 8 (o / 16 % 16) fun m => withFin 8 (o / 256 % 16) fun v =>
    withFin 8 (o / 4096) fun kk => .ok (k c m v kk)
def bankF (o : Nat) (k : BankSel → BankState → Instr) : Except Reject Instr :=
  withEnum (BankSel.ofCode (o / 4)) fun b => withEnum (BankState.ofCode (o % 4)) fun s => .ok (k b s)
def ssF (o : Nat) (k : SOp → SOp → Instr) : Except Reject Instr := uF o k
def evsigF (o : Nat) (k : EvOp → SOp → SOp → Instr) : Except Reject Instr :=
  withEnum (EvOp.ofCode (fld1 o)) fun op => withS (fld2 o) fun e => withS (fld3 o) fun v => .ok (k op e v)

/-! ## Opcode maps -/

/-- The S map (R51). -/
def decodeS (op opr : Nat) (g : Guard) : Except Reject Instr :=
  match op with
  | 0x00 => zeroF opr (.nop g)
  | 0x01 => rF opr (.add g)
  | 0x02 => rF opr (.sub g)
  | 0x03 => rF opr (.and g)
  | 0x04 => rF opr (.or g)
  | 0x05 => rF opr (.xor g)
  | 0x06 => rF opr (.shl g)
  | 0x07 => rF opr (.shr g)
  | 0x08 => rF opr (.sra g)
  | 0x09 => rF opr (.min g)
  | 0x0A => rF opr (.max g)
  | 0x0B => rF opr (.minu g)
  | 0x0C => rF opr (.maxu g)
  | 0x0D => rF opr (.mul g)
  | 0x0E => rF opr (.mulh g)
  | 0x0F => rF opr (.mulhu g)
  | 0x10 => rF opr (.div g)
  | 0x11 => rF opr (.divu g)
  | 0x12 => rF opr (.rem g)
  | 0x13 => rF opr (.remu g)
  | 0x14 => riF opr (.addi g)
  | 0x15 => riF opr (.andi g)
  | 0x16 => riF opr (.ori g)
  | 0x17 => riF opr (.xori g)
  | 0x18 => riF opr (.shli g)
  | 0x19 => riF opr (.shri g)
  | 0x1A => riF opr (.srai g)
  | 0x1B => liF opr (.li g)
  | 0x1C => liF opr (.lis g)
  | 0x1D => rF opr (.sel g)
  | 0x1E => uF opr (.clz g)
  | 0x1F => uF opr (.popc g)
  | 0x20 => cF opr (.cmp g)
  | 0x21 => ciF opr (.cmpi g)
  | 0x22 => pF opr (.plog g)
  | 0x23 => bF opr (.pbt g)
  | 0x24 => bsF opr (.pbr g)
  | 0x25 => boF opr (.br g)
  | 0x26 => boF opr (.call g)
  | 0x27 => zeroF opr (.ret g)
  | 0x28 => bF opr (.jal g)
  | 0x29 => boF opr (.jr g)
  | 0x2A => lpF opr (.loop g)
  | 0x2B => riF opr (.ldB g)
  | 0x2C => riF opr (.ldH g)
  | 0x2D => riF opr (.ldW g)
  | 0x2E => riF opr (.ldD g)
  | 0x2F => riF opr (.ldBU g)
  | 0x30 => riF opr (.ldHU g)
  | 0x31 => riF opr (.ldWU g)
  | 0x32 => riF opr (.stB g)
  | 0x33 => riF opr (.stH g)
  | 0x34 => riF opr (.stW g)
  | 0x35 => riF opr (.stD g)
  | 0x36 => rF opr (.atomAdd g)
  | 0x37 => rF opr (.atomMin g)
  | 0x38 => rF opr (.atomMax g)
  | 0x39 => rF opr (.atomAnd g)
  | 0x3A => rF opr (.atomOr g)
  | 0x3B => rF opr (.atomXor g)
  | 0x3C => rF opr (.atomSwap g)
  | 0x3D => rF opr (.cas g)
  | 0x3E => liF opr (.mfs g)
  | 0x3F => lpF opr fun a i => .mts g i a
  | _ => .error .unassigned

/-- The V map (R52). -/
def decodeV (op opr : Nat) (g : Guard) : Except Reject Instr :=
  match op with
  | 0x00 => zeroF opr (.vnop g)
  | 0x01 => vGGG opr (.vadd g)
  | 0x02 => vGGG opr (.vsub g)
  | 0x03 => vGGG opr (.vmul g)
  | 0x04 => vGGG opr (.vfma g)
  | 0x05 => vGGG opr (.vmin g)
  | 0x06 => vGGG opr (.vmax g)
  | 0x07 => vGGZ opr (.vabs g)
  | 0x08 => vGGZ opr (.vneg g)
  | 0x09 => vGGG opr (.vadds g)
  | 0x0A => vGGG opr (.vsubs g)
  | 0x0B => vGGG opr (.vand g)
  | 0x0C => vGGG opr (.vor g)
  | 0x0D => vGGG opr (.vxor g)
  | 0x0E => vGGG opr (.vshl g)
  | 0x0F => vGGG opr (.vshr g)
  | 0x10 => vGGG opr (.vsra g)
  | 0x11 => vMGG opr (.vcmpeq g)
  | 0x12 => vMGG opr (.vcmpne g)
  | 0x13 => vMGG opr (.vcmplt g)
  | 0x14 => vMGG opr (.vcmple g)
  | 0x15 => vGGG opr (.vsel g)
  | 0x16 => vGGT opr (.vcvt g)
  | 0x17 => vGGZ opr (.vexp2 g)
  | 0x18 => vGGZ opr (.vlog2 g)
  | 0x19 => vGGZ opr (.vrcp g)
  | 0x1A => vGGZ opr (.vrsq g)
  | 0x1B => vGGZ opr (.vsqrt g)
  | 0x1C => vRed opr (.vred g)
  | 0x1D => vRedx opr (.vredx g)
  | 0x1E => vGGO opr (.vscan g)
  | 0x1F => vGGO opr (.vcomp g)
  | 0x20 => vGGO opr (.vexpd g)
  | 0x21 => vGGG opr (.vperm g)
  | 0x22 => vGOZ opr (.vbcast g)
  | 0x23 => vGGZ opr (.vmov g)
  | 0x24 => vGOZ opr (.viota g)
  | 0x25 => vMGZ opr (.vany g)
  | 0x26 => vMGZ opr (.vall g)
  | 0x27 => vMMZ opr (.vpopm g)
  | 0x28 => vMGZ opr (.vmask g)
  | 0x29 => vGOO opr (.vrand g)
  | 0x2A => vGGZ opr (.vsrt g)
  | 0x2B => vGGG opr (.vmrg g)
  | 0x2C => vGGG opr (.vgath g)
  | 0x2D => vGGG opr (.vscat g)
  | _ => .error .unassigned

/-- The M map (R53). -/
def decodeM (op opr : Nat) (g : Guard) : Except Reject Instr :=
  match op with
  | 0x00 => zeroF opr (.mnop g)
  | 0x01 => mZ opr (.mclr g)
  | 0x02 => mMul opr (.mmul g)
  | 0x03 => mMulb opr (.mmulb g)
  | 0x04 => mH opr (.mout g)
  | 0x05 => mH opr (.moutr g)
  | 0x06 => mH opr (.maddr g)
  | 0x07 => mHH opr (.mpack g)
  | 0x08 => mHH opr (.munpk g)
  | 0x09 => mZH opr (.mstat g)
  | _ => .error .unassigned

/-- The C map (R53). -/
def decodeC (op opr : Nat) (g : Guard) : Except Reject Instr :=
  match op with
  | 0x00 => zeroF opr (.cnop g)
  | 0x01 => cH opr (.cpyin g)
  | 0x02 => cH opr (.cpyout g)
  | 0x03 => cHH opr (.cpyloc g)
  | 0x04 => cHSS opr (.stage g)
  | 0x05 => cSadv opr (.sadv g)
  | 0x06 => zeroF opr (.publish g)
  | 0x07 => sssF opr (.catom g)
  | 0x08 => cHS opr (.cfill g)
  | _ => .error .unassigned

/-- The K map (R53). -/
def decodeK (op opr : Nat) (g : Guard) : Except Reject Instr :=
  match op with
  | 0x00 => zeroF opr (.knop g)
  | 0x01 => kNSS opr 16 (.agset g)
  | 0x02 => kNS opr 16 (.agstr g)
  | 0x03 => kDN opr 16 (.agout g)
  | 0x04 => kNS opr 16 (.agadd g)
  | 0x05 => kAgrd opr (.agrd g)
  | 0x06 => kAgblk opr (.agblk g)
  | 0x07 => kNS opr 32 (.hld g)
  | 0x08 => kNS opr 32 (.hst g)
  | 0x09 => kHsetf opr (.hsetf g)
  | 0x0A => kHgetf opr (.hgetf g)
  | 0x0B => kNS opr 4 (.scl g)
  | 0x0C => kNS opr 4 (.ymset g)
  | 0x0D => kNS opr 4 (.xmset g)
  | 0x0E => kNS opr 8 (.vmset g)
  | 0x0F => kDN opr 8 (.vmget g)
  | 0x10 => kDN opr 8 (.mkget g)
  | _ => .error .unassigned

/-- The L map (R53). -/
def decodeL (op opr : Nat) (g : Guard) : Except Reject Instr :=
  match op with
  | 0x00 => zeroF opr (.lnop g)
  | 0x01 => .ok (.route g (Fin.ofNat 16 (opr / 16384)) (BitVec.ofNat 14 opr))
  | 0x02 => kNS opr 16 (.rtset g)
  | 0x03 => lSend opr (.send g)
  | 0x04 => lRecv opr (.recv g)
  | 0x05 => lSS opr (.ratom g)
  | 0x06 => lS opr (.rld g)
  | 0x07 => lTag opr (.tagset g)
  | _ => .error .unassigned

/-- The X map (R54). -/
def decodeX (op opr : Nat) (g : Guard) : Except Reject Instr :=
  match op with
  | 0x00 => zeroF opr (.xnop g)
  | 0x01 => immF opr 8 (.trap g (BitVec.ofNat 8 opr))
  | 0x02 => dF opr (.rdcyc g)
  | 0x03 => dF opr (.rdwall g)
  | 0x04 => waitsF opr g
  | 0x05 => immF opr 3 (.waitw g (Fin.ofNat 8 opr))
  | 0x06 => zeroF opr (.realign g)
  | 0x07 => clkF opr (.clkdiv g)
  | 0x08 => immF opr 12 (.pswitch g (BitVec.ofNat 12 opr))
  | 0x09 => immF opr 3 (.fidset g (Fin.ofNat 8 opr))
  | 0x0A => .ok (.wchk g (Fin.ofNat 16 opr) (Fin.ofNat 2 (opr / 16)) (BitVec.ofNat 13 (opr / 32)))
  | 0x0B => immF opr 12 (.repb g (BitVec.ofNat 12 opr))
  | 0x0C => zeroF opr (.trec g)
  | 0x0D => zeroF opr (.tend g)
  | 0x0E => zeroF opr (.halt g)
  | 0x0F => bankF opr (.bankpwr g)
  | 0x20 => ssF opr (.launch g)
  | 0x21 => sssF opr (.evwait g)
  | 0x22 => evsigF opr (.evsig g)
  | 0x23 => ssF opr (.lda g)
  | 0x24 => ssF opr (.stl g)
  | 0x25 => immF opr 1 (.fence g (opr % 2 == 1))
  | 0x26 => sssF opr (.clrun g)
  | 0x27 => sssF opr (.preempt g)
  | 0x28 => sssF opr (.resume g)
  | 0x29 => ssF opr (.kill g)
  | 0x2A => sssF opr (.lease g)
  | 0x2B => zeroF opr (.eret g)
  | 0x2C => sssF opr (.wread g)
  | _ => .error .unassigned

/-- The instruction of a class, opcode, guard and operand field, before the operand checks of `Instr.wf`. -/
def decodeClass (cls op opr : Nat) (g : Guard) : Except Reject Instr :=
  match cls with
  | 0 => decodeS op opr g
  | 1 => decodeV op opr g
  | 2 => decodeM op opr g
  | 3 => decodeC op opr g
  | 4 => decodeK op opr g
  | 5 => decodeL op opr g
  | 6 => decodeX op opr g
  | _ => .error .class7

def slotStop (w : Nat) : Bool := w / 2147483648 % 2 == 1
def slotClass (w : Nat) : Nat := w / 268435456 % 8
def slotGuard (w : Nat) : Guard := Fin.ofNat 16 (w / 16777216)
def slotOp (w : Nat) : Nat := w / 262144 % 64
def slotOpr (w : Nat) : Nat := w % 262144

/-- Keeps an instruction whose operands are well formed (R39, last check). -/
def wellFormedOr (r : Except Reject Instr) : Except Reject Instr :=
  match r with
  | .ok i => okIf i.wf i
  | .error e => .error e

/-- The instruction of one slot word (R33); the stop bit is `slotStop`. -/
def decodeSlot (w : Nat) : Except Reject Instr :=
  wellFormedOr (decodeClass (slotClass w) (slotOp w) (slotOpr w) (slotGuard w))

/-- Whether the opcode of a slot is assigned in its class (R51 to R54). -/
def opAssigned (cls op : Nat) : Bool :=
  match cls with
  | 0 => true
  | 1 => op < 0x2E
  | 2 => op < 0x0A
  | 3 => op < 0x09
  | 4 => op < 0x11
  | 5 => op < 0x08
  | 6 => op < 0x10 || (0x20 ≤ op && op < 0x2D)
  | _ => false

/-- Whether an assigned opcode runs on a kind of core (R54, R51). -/
def opAvailable (core : CoreKind) (cls op : Nat) : Bool :=
  match core with
  | .tile => cls != 6 || op < 0x10
  | .lantern => cls == 0 || (cls == 6 && (op == 0 || op == 1 || op == 3 || 0x20 ≤ op))

/-- The first slot of a list at which a check fails, counted from i. -/
def firstBad (bad : Nat → Bool) : List Nat → Nat → Option Nat
  | [], _ => none
  | w :: ws, i => if bad w then some i else firstBad bad ws (i + 1)

/-- The place of a class in the order of R37; S and X share the first. -/
def classPlace (cls : Nat) : Nat := if cls = 6 then 0 else cls

/-- The most slots of one place that a tile bundle holds (R37): two V, two C, one of each other. -/
def placeMax (p : Nat) : Nat := if p = 1 || p = 3 then 2 else 1

/-- The first slot that breaks R37: a place that descends, or one too many of a place. -/
def tileOrderBad : List Nat → (last count : Nat) → Nat → Option Nat
  | [], _, _, _ => none
  | w :: ws, last, count, i =>
    let p := classPlace (slotClass w)
    if count != 0 && p < last then some i
    else
      let n := if count != 0 && p == last then count + 1 else 1
      if placeMax p < n then some i else tileOrderBad ws p n (i + 1)

/-- The control transfers of R38: BR, CALL, RET, JAL, JR, LOOP and ERET. -/
def slotIsTransfer (w : Nat) : Bool :=
  (slotClass w == 0 && 0x25 ≤ slotOp w && slotOp w ≤ 0x2A) || (slotClass w == 6 && slotOp w == 0x2B)

/-- The memory accesses of R38: LD, ST, ATOM, CAS, LDA and STL. -/
def slotIsMemory (w : Nat) : Bool :=
  (slotClass w == 0 && 0x2B ≤ slotOp w && slotOp w ≤ 0x3D) ||
    (slotClass w == 6 && (slotOp w == 0x23 || slotOp w == 0x24))

/-- The first slot that breaks R38, given the transfers and memory accesses of the slots before it. -/
def lanternMixBad : List Nat → (ctl mem : Nat) → Nat → Option Nat
  | [], _, _, _ => none
  | w :: ws, ctl, mem, i =>
    let c := if slotIsTransfer w then ctl + 1 else ctl
    let m := if slotIsMemory w then mem + 1 else mem
    if 1 < c || 2 < m then some i else lanternMixBad ws c m (i + 1)

/-- PUBLISH (R246), of which a bundle holds at most one. -/
def slotIsPublish (w : Nat) : Bool := slotClass w == 3 && slotOp w == 0x06

/-- REPB (R370), which stands only in a bundle that holds PUBLISH. -/
def slotIsRepb (w : Nat) : Bool := slotClass w == 6 && slotOp w == 0x0B

/-- The second PUBLISH of a bundle. -/
def secondPublish : List Nat → Bool → Nat → Option Nat
  | [], _, _ => none
  | w :: ws, seen, i =>
    if slotIsPublish w && seen then some i else secondPublish ws (seen || slotIsPublish w) (i + 1)

/-- The first slot that breaks the composition of a bundle (R37, R38, R246, R370, R371). That the 0x0102 of a second PUBLISH and
of a REPB without one stand behind the order of R37 and before 0x0103 is DEDUCED, log entry 105. -/
def compositionBad (core : CoreKind) (ws : List Nat) : Option Nat :=
  match core with
  | .lantern => lanternMixBad ws 0 0 0
  | .tile =>
    match tileOrderBad ws 0 0 0 with
    | some i => some i
    | none =>
      match secondPublish ws false 0 with
      | some i => some i
      | none => if ws.any slotIsPublish then none else firstBad slotIsRepb ws 0

/-- The instructions of a list of slots that decode. -/
def decodeAll : List Nat → Option (List Instr)
  | [] => some []
  | w :: ws =>
    match decodeSlot w, decodeAll ws with
    | .ok i, some is => some (i :: is)
    | _, _ => none

/-- Whether a kind of core has the special register (R103). -/
def sregOn (core : CoreKind) (idx : BitVec 12) : Bool :=
  match core with
  | .tile => sregShared idx.toNat || sregTile idx.toNat
  | .lantern => sregShared idx.toNat || sregLantern idx.toNat

/-- Whether an operand field of a slot is reserved or out of range on a kind of core (R39, R103). -/
def slotBadOperand (core : CoreKind) (w : Nat) : Bool :=
  match decodeSlot w with
  | .error _ => true
  | .ok (.mfs _ _ idx) => !sregOn core idx
  | .ok (.mts _ idx _) => !sregOn core idx
  | .ok _ => false

/-- The first check of R39 that a fetched bundle fails: its fault code and the slot that FADDR names. -/
def bundleBad (core : CoreKind) (ws : List Nat) : Option (Nat × Nat) :=
  let n := ws.length
  let ended := slotStop (ws.getLastD 0)
  if core == .tile && (n < 4 || !ended) then some (0x0105, 0)
  else if core == .lantern && (n != 4 || !ended) then some (0x0105, 0)
  else match firstBad (fun w => slotClass w == 7) ws 0 with
  | some i => some (0x0101, i)
  | none =>
    match (if core == .lantern then firstBad (fun w => slotClass w != 0 && slotClass w != 6) ws 0 else none) with
    | some i => some (0x0106, i)
    | none =>
      match compositionBad core ws with
      | some i => some (0x0102, i)
      | none =>
        match firstBad (fun w => !opAssigned (slotClass w) (slotOp w)) ws 0 with
        | some i => some (0x0103, i)
        | none =>
          match firstBad (fun w => !opAvailable core (slotClass w) (slotOp w)) ws 0 with
          | some i => some (0x0106, i)
          | none =>
            match firstBad (slotBadOperand core) ws 0 with
            | some i => some (0x0104, i)
            | none => none

/-- The decoder on one table word (a slot in the low 32 bits, numbered as the opcode table numbers it). -/
def decodeTableWord (nbits w : Nat) : Option Instr :=
  match decodeSlot (w % 2 ^ min nbits 32) with
  | .ok i => some i
  | .error _ => none

/-! ## The encoder -/

/-- Class, opcode, guard and operand field of a slot instruction; an event has no word. -/
def encodeFields : Instr → Option (Nat × Nat × Nat × Nat)
  | .nop g => some (0, 0x00, g.val, 0)
  | .add g d a b => some (0, 0x01, g.val, f3 d.code a.code b.code)
  | .sub g d a b => some (0, 0x02, g.val, f3 d.code a.code b.code)
  | .and g d a b => some (0, 0x03, g.val, f3 d.code a.code b.code)
  | .or g d a b => some (0, 0x04, g.val, f3 d.code a.code b.code)
  | .xor g d a b => some (0, 0x05, g.val, f3 d.code a.code b.code)
  | .shl g d a b => some (0, 0x06, g.val, f3 d.code a.code b.code)
  | .shr g d a b => some (0, 0x07, g.val, f3 d.code a.code b.code)
  | .sra g d a b => some (0, 0x08, g.val, f3 d.code a.code b.code)
  | .min g d a b => some (0, 0x09, g.val, f3 d.code a.code b.code)
  | .max g d a b => some (0, 0x0A, g.val, f3 d.code a.code b.code)
  | .minu g d a b => some (0, 0x0B, g.val, f3 d.code a.code b.code)
  | .maxu g d a b => some (0, 0x0C, g.val, f3 d.code a.code b.code)
  | .mul g d a b => some (0, 0x0D, g.val, f3 d.code a.code b.code)
  | .mulh g d a b => some (0, 0x0E, g.val, f3 d.code a.code b.code)
  | .mulhu g d a b => some (0, 0x0F, g.val, f3 d.code a.code b.code)
  | .div g d a b => some (0, 0x10, g.val, f3 d.code a.code b.code)
  | .divu g d a b => some (0, 0x11, g.val, f3 d.code a.code b.code)
  | .rem g d a b => some (0, 0x12, g.val, f3 d.code a.code b.code)
  | .remu g d a b => some (0, 0x13, g.val, f3 d.code a.code b.code)
  | .addi g d a i => some (0, 0x14, g.val, f3 d.code a.code i.toNat)
  | .andi g d a i => some (0, 0x15, g.val, f3 d.code a.code i.toNat)
  | .ori g d a i => some (0, 0x16, g.val, f3 d.code a.code i.toNat)
  | .xori g d a i => some (0, 0x17, g.val, f3 d.code a.code i.toNat)
  | .shli g d a i => some (0, 0x18, g.val, f3 d.code a.code i.toNat)
  | .shri g d a i => some (0, 0x19, g.val, f3 d.code a.code i.toNat)
  | .srai g d a i => some (0, 0x1A, g.val, f3 d.code a.code i.toNat)
  | .li g d i => some (0, 0x1B, g.val, d.code * 4096 + i.toNat)
  | .lis g d i => some (0, 0x1C, g.val, d.code * 4096 + i.toNat)
  | .sel g d a b => some (0, 0x1D, g.val, f3 d.code a.code b.code)
  | .clz g d a => some (0, 0x1E, g.val, f3 d.code a.code 0)
  | .popc g d a => some (0, 0x1F, g.val, f3 d.code a.code 0)
  | .cmp g k c a b => some (0, 0x20, g.val, k.val * 32768 + c.code * 4096 + a.code * 64 + b.code)
  | .cmpi g k c a i => some (0, 0x21, g.val, k.val * 32768 + c.code * 4096 + a.code * 64 + i.toNat)
  | .plog g k op x y => some (0, 0x22, g.val, k.val * 32768 + op.code * 8192 + x.val * 512 + y.val * 32)
  | .pbt g b i => some (0, 0x23, g.val, b.val * 65536 + i.toNat)
  | .pbr g b a => some (0, 0x24, g.val, b.val * 65536 + a.code * 64)
  | .br g b => some (0, 0x25, g.val, b.val * 65536)
  | .call g b => some (0, 0x26, g.val, b.val * 65536)
  | .ret g => some (0, 0x27, g.val, 0)
  | .jal g b i => some (0, 0x28, g.val, b.val * 65536 + i.toNat)
  | .jr g b => some (0, 0x29, g.val, b.val * 65536)
  | .loop g a n => some (0, 0x2A, g.val, a.code * 4096 + n.toNat)
  | .ldB g d a i => some (0, 0x2B, g.val, f3 d.code a.code i.toNat)
  | .ldH g d a i => some (0, 0x2C, g.val, f3 d.code a.code i.toNat)
  | .ldW g d a i => some (0, 0x2D, g.val, f3 d.code a.code i.toNat)
  | .ldD g d a i => some (0, 0x2E, g.val, f3 d.code a.code i.toNat)
  | .ldBU g d a i => some (0, 0x2F, g.val, f3 d.code a.code i.toNat)
  | .ldHU g d a i => some (0, 0x30, g.val, f3 d.code a.code i.toNat)
  | .ldWU g d a i => some (0, 0x31, g.val, f3 d.code a.code i.toNat)
  | .stB g d a i => some (0, 0x32, g.val, f3 d.code a.code i.toNat)
  | .stH g d a i => some (0, 0x33, g.val, f3 d.code a.code i.toNat)
  | .stW g d a i => some (0, 0x34, g.val, f3 d.code a.code i.toNat)
  | .stD g d a i => some (0, 0x35, g.val, f3 d.code a.code i.toNat)
  | .atomAdd g d a b => some (0, 0x36, g.val, f3 d.code a.code b.code)
  | .atomMin g d a b => some (0, 0x37, g.val, f3 d.code a.code b.code)
  | .atomMax g d a b => some (0, 0x38, g.val, f3 d.code a.code b.code)
  | .atomAnd g d a b => some (0, 0x39, g.val, f3 d.code a.code b.code)
  | .atomOr g d a b => some (0, 0x3A, g.val, f3 d.code a.code b.code)
  | .atomXor g d a b => some (0, 0x3B, g.val, f3 d.code a.code b.code)
  | .atomSwap g d a b => some (0, 0x3C, g.val, f3 d.code a.code b.code)
  | .cas g d a b => some (0, 0x3D, g.val, f3 d.code a.code b.code)
  | .mfs g d i => some (0, 0x3E, g.val, d.code * 4096 + i.toNat)
  | .mts g i a => some (0, 0x3F, g.val, a.code * 4096 + i.toNat)
  | .vnop g => some (1, 0x00, g.val, 0)
  | .vadd g t m d a b => some (1, 0x01, g.val, vop t m d.val a.val b.val)
  | .vsub g t m d a b => some (1, 0x02, g.val, vop t m d.val a.val b.val)
  | .vmul g t m d a b => some (1, 0x03, g.val, vop t m d.val a.val b.val)
  | .vfma g t m d a b => some (1, 0x04, g.val, vop t m d.val a.val b.val)
  | .vmin g t m d a b => some (1, 0x05, g.val, vop t m d.val a.val b.val)
  | .vmax g t m d a b => some (1, 0x06, g.val, vop t m d.val a.val b.val)
  | .vabs g t m d a => some (1, 0x07, g.val, vop t m d.val a.val 0)
  | .vneg g t m d a => some (1, 0x08, g.val, vop t m d.val a.val 0)
  | .vadds g t m d a b => some (1, 0x09, g.val, vop t m d.val a.val b.val)
  | .vsubs g t m d a b => some (1, 0x0A, g.val, vop t m d.val a.val b.val)
  | .vand g t m d a b => some (1, 0x0B, g.val, vop t m d.val a.val b.val)
  | .vor g t m d a b => some (1, 0x0C, g.val, vop t m d.val a.val b.val)
  | .vxor g t m d a b => some (1, 0x0D, g.val, vop t m d.val a.val b.val)
  | .vshl g t m d a b => some (1, 0x0E, g.val, vop t m d.val a.val b.val)
  | .vshr g t m d a b => some (1, 0x0F, g.val, vop t m d.val a.val b.val)
  | .vsra g t m d a b => some (1, 0x10, g.val, vop t m d.val a.val b.val)
  | .vcmpeq g t m k a b => some (1, 0x11, g.val, vop t m k.val a.val b.val)
  | .vcmpne g t m k a b => some (1, 0x12, g.val, vop t m k.val a.val b.val)
  | .vcmplt g t m k a b => some (1, 0x13, g.val, vop t m k.val a.val b.val)
  | .vcmple g t m k a b => some (1, 0x14, g.val, vop t m k.val a.val b.val)
  | .vsel g t m d a b => some (1, 0x15, g.val, vop t m d.val a.val b.val)
  | .vcvt g t m d a st => some (1, 0x16, g.val, vop t m d.val a.val st.code)
  | .vexp2 g t m d a => some (1, 0x17, g.val, vop t m d.val a.val 0)
  | .vlog2 g t m d a => some (1, 0x18, g.val, vop t m d.val a.val 0)
  | .vrcp g t m d a => some (1, 0x19, g.val, vop t m d.val a.val 0)
  | .vrsq g t m d a => some (1, 0x1A, g.val, vop t m d.val a.val 0)
  | .vsqrt g t m d a => some (1, 0x1B, g.val, vop t m d.val a.val 0)
  | .vred g t m k a fn => some (1, 0x1C, g.val, vop t m k.val a.val fn.code)
  | .vredx g t m k a fn => some (1, 0x1D, g.val, vop t m k.val a.val fn.code)
  | .vscan g t m d a k => some (1, 0x1E, g.val, vop t m d.val a.val k.val)
  | .vcomp g t m d a k => some (1, 0x1F, g.val, vop t m d.val a.val k.val)
  | .vexpd g t m d a k => some (1, 0x20, g.val, vop t m d.val a.val k.val)
  | .vperm g t m d a b => some (1, 0x21, g.val, vop t m d.val a.val b.val)
  | .vbcast g t m d k => some (1, 0x22, g.val, vop t m d.val k.val 0)
  | .vmov g t m d a => some (1, 0x23, g.val, vop t m d.val a.val 0)
  | .viota g t m d k => some (1, 0x24, g.val, vop t m d.val k.val 0)
  | .vany g t m k a => some (1, 0x25, g.val, vop t m k.val a.val 0)
  | .vall g t m k a => some (1, 0x26, g.val, vop t m k.val a.val 0)
  | .vpopm g t m k j => some (1, 0x27, g.val, vop t m k.val j.val 0)
  | .vmask g t m k a => some (1, 0x28, g.val, vop t m k.val a.val 0)
  | .vrand g t m d k1 k2 => some (1, 0x29, g.val, vop t m d.val k1.val k2.val)
  | .vsrt g t m d a => some (1, 0x2A, g.val, vop t m d.val a.val 0)
  | .vmrg g t m d a b => some (1, 0x2B, g.val, vop t m d.val a.val b.val)
  | .vgath g t m d a b => some (1, 0x2C, g.val, vop t m d.val a.val b.val)
  | .vscat g t m d a b => some (1, 0x2D, g.val, vop t m d.val a.val b.val)
  | .mnop g => some (2, 0x00, g.val, 0)
  | .mclr g z => some (2, 0x01, g.val, z.val * 131072)
  | .mmul g z p ha hb n => some (2, 0x02, g.val, mop z.val p.val ha.val hb.val n.val)
  | .mmulb g z grp ha hb a => some (2, 0x03, g.val, mop z.val grp.code ha.val hb.val (2 * a.val))
  | .mout g z p h => some (2, 0x04, g.val, mop z.val p.val h.val 0 0)
  | .moutr g z p h => some (2, 0x05, g.val, mop z.val p.val h.val 0 0)
  | .maddr g z p h => some (2, 0x06, g.val, mop z.val p.val h.val 0 0)
  | .mpack g x y n => some (2, 0x07, g.val, mop 0 0 x.val y.val n.val)
  | .munpk g x y n => some (2, 0x08, g.val, mop 0 0 x.val y.val n.val)
  | .mstat g z h => some (2, 0x09, g.val, mop z.val 0 h.val 0 0)
  | .cnop g => some (3, 0x00, g.val, 0)
  | .cpyin g h => some (3, 0x01, g.val, h.val * 4096)
  | .cpyout g h => some (3, 0x02, g.val, h.val * 4096)
  | .cpyloc g hd hs => some (3, 0x03, g.val, f3 hd.val hs.val 0)
  | .stage g h c a => some (3, 0x04, g.val, f3 h.val c.code a.code)
  | .sadv g w p => some (3, 0x05, g.val, p.val * 16 + w.val)
  | .publish g => some (3, 0x06, g.val, 0)
  | .catom g v o c => some (3, 0x07, g.val, f3 v.code o.code c.code)
  | .cfill g h a => some (3, 0x08, g.val, f3 h.val a.code 0)
  | .knop g => some (4, 0x00, g.val, 0)
  | .agset g n p c => some (4, 0x01, g.val, f3 n.val p.code c.code)
  | .agstr g n s => some (4, 0x02, g.val, f3 n.val s.code 0)
  | .agout g d n => some (4, 0x03, g.val, f3 d.code n.val 0)
  | .agadd g n a => some (4, 0x04, g.val, f3 n.val a.code 0)
  | .agrd g d n w => some (4, 0x05, g.val, f3 d.code n.val w.code)
  | .agblk g n w => some (4, 0x06, g.val, f3 n.val 0 w.val)
  | .hld g h a => some (4, 0x07, g.val, f3 h.val a.code 0)
  | .hst g h a => some (4, 0x08, g.val, f3 h.val a.code 0)
  | .hsetf g h f a => some (4, 0x09, g.val, f3 h.val f.val a.code)
  | .hgetf g d f h => some (4, 0x0A, g.val, f3 d.code f.val h.val)
  | .scl g k a => some (4, 0x0B, g.val, f3 k.val a.code 0)
  | .ymset g n a => some (4, 0x0C, g.val, f3 n.val a.code 0)
  | .xmset g n a => some (4, 0x0D, g.val, f3 n.val a.code 0)
  | .vmset g n a => some (4, 0x0E, g.val, f3 n.val a.code 0)
  | .vmget g d n => some (4, 0x0F, g.val, f3 d.code n.val 0)
  | .mkget g d n => some (4, 0x10, g.val, f3 d.code n.val 0)
  | .lnop g => some (5, 0x00, g.val, 0)
  | .route g e c => some (5, 0x01, g.val, e.val * 16384 + c.toNat)
  | .rtset g e a => some (5, 0x02, g.val, f3 e.val a.code 0)
  | .send g a k => some (5, 0x03, g.val, f3 a.val k.val 0)
  | .recv g a k chk lnk => some (5, 0x04, g.val, f3 a.val (k.val + 4 * chk.toNat + 8 * lnk.toNat) 0)
  | .ratom g c o => some (5, 0x05, g.val, f3 c.code o.code 0)
  | .rld g c => some (5, 0x06, g.val, f3 c.code 0 0)
  | .tagset g tag sel => some (5, 0x07, g.val, sel.val * 256 + tag.toNat)
  | .xnop g => some (6, 0x00, g.val, 0)
  | .trap g n => some (6, 0x01, g.val, n.toNat)
  | .rdcyc g d => some (6, 0x02, g.val, d.code * 4096)
  | .rdwall g d => some (6, 0x03, g.val, d.code * 4096)
  | .waitsImm g n => some (6, 0x04, g.val, n.toNat)
  | .waitsReg g a => some (6, 0x04, g.val, 131072 + a.code * 64)
  | .waitw g j => some (6, 0x05, g.val, j.val)
  | .realign g => some (6, 0x06, g.val, 0)
  | .clkdiv g dc dm dv dk => some (6, 0x07, g.val, dk.val * 4096 + dv.val * 256 + dm.val * 16 + dc.val)
  | .pswitch g n => some (6, 0x08, g.val, n.toNat)
  | .fidset g v => some (6, 0x09, g.val, v.val)
  | .wchk g w p lead => some (6, 0x0A, g.val, lead.toNat * 32 + p.val * 16 + w.val)
  | .repb g n => some (6, 0x0B, g.val, n.toNat)
  | .trec g => some (6, 0x0C, g.val, 0)
  | .tend g => some (6, 0x0D, g.val, 0)
  | .halt g => some (6, 0x0E, g.val, 0)
  | .bankpwr g b st => some (6, 0x0F, g.val, b.code * 4 + st.code)
  | .launch g d a => some (6, 0x20, g.val, f3 d.code a.code 0)
  | .evwait g d e v => some (6, 0x21, g.val, f3 d.code e.code v.code)
  | .evsig g op e v => some (6, 0x22, g.val, f3 op.code e.code v.code)
  | .lda g d a => some (6, 0x23, g.val, f3 d.code a.code 0)
  | .stl g d a => some (6, 0x24, g.val, f3 d.code a.code 0)
  | .fence g t => some (6, 0x25, g.val, t.toNat)
  | .clrun g d a b => some (6, 0x26, g.val, f3 d.code a.code b.code)
  | .preempt g d a b => some (6, 0x27, g.val, f3 d.code a.code b.code)
  | .resume g d a b => some (6, 0x28, g.val, f3 d.code a.code b.code)
  | .lease g d a b => some (6, 0x2A, g.val, f3 d.code a.code b.code)
  | .kill g d a => some (6, 0x29, g.val, f3 d.code a.code 0)
  | .eret g => some (6, 0x2B, g.val, 0)
  | .wread g a c s => some (6, 0x2C, g.val, f3 a.code c.code s.code)
  | _ => none

/-- The slot word of an instruction with a given stop bit (R33). -/
def encode (stop : Bool) (i : Instr) : Option Slot32 :=
  match encodeFields i with
  | some (cls, op, g, opr) =>
    some (BitVec.ofNat 32 (stop.toNat * 2147483648 + cls * 268435456 + g * 16777216 + op * 262144 + opr))
  | none => none

end Sys2Proof
end

