-- ==== Sys2Proof/Machine/Num.lean ====
section
/-! DEFINITION. Number formats and rounding (03_numbers.md). Every operation forms its exact result over the integers
and is narrowed once, at the end. Raw element values are natural numbers below 2^width. -/

namespace Sys2Proof.Machine

/-! ## Bits -/

/-- Bits [lo + n - 1 : lo] of a number. -/
def bitsOf (x lo n : Nat) : Nat := x / 2 ^ lo % 2 ^ n

/-- Bit i of a number. -/
def bitOf (x i : Nat) : Bool := x / 2 ^ i % 2 == 1

/-- Two's complement reading of the low n bits (R8 sx). -/
def toSigned (n x : Nat) : Int :=
  let v := x % 2 ^ n
  if v < 2 ^ (n - 1) then v else (v : Int) - (2 ^ n : Nat)

/-- The low n bits of an integer (R8 wrap, as raw bits). -/
def toRaw (n : Nat) (v : Int) : Nat := (v % (2 ^ n : Nat)).toNat

/-- The number of bits of n: 0 for 0, else floor(log2 n) + 1. -/
def bitLen (n : Nat) : Nat := if n = 0 then 0 else Nat.log2 n + 1

/-- sat of R8. -/
def satInt (x lo hi : Int) : Int := if x < lo then lo else if hi < x then hi else x

/-- The count of one bits among the low n bits. -/
def popCount : (n x : Nat) → Nat
  | 0, _ => 0
  | n + 1, x => x % 2 + popCount n (x / 2)

def isqrtStep (n : Nat) : (fuel x : Nat) → Nat
  | 0, x => x
  | fuel + 1, x =>
    let y := (x + n / x) / 2
    if y < x then isqrtStep n fuel y else x

/-- The integer square root, by Newton's steps from above. -/
def isqrt (n : Nat) : Nat := if n = 0 then 0 else isqrtStep n 64 (2 ^ ((bitLen n + 1) / 2))

/-! ## Flags and modes (R74, R79) -/

abbrev FFlags := BitVec 6
def flagNX : FFlags := 0b000001
def flagUF : FFlags := 0b000010
def flagOF : FFlags := 0b000100
def flagDZ : FFlags := 0b001000
def flagNV : FFlags := 0b010000
def flagSA : FFlags := 0b100000

/-- Flag f if the condition holds. -/
def flagIf (c : Bool) (f : FFlags) : FFlags := if c then f else 0

/-- Rounding modes (R74). -/
inductive RMode where
  | rne | rz | ru | rd
  deriving DecidableEq, Repr

/-- The mode of the MODE code (R74, R89). -/
def RMode.ofCode (n : Nat) : RMode :=
  match n % 4 with
  | 0 => .rne
  | 1 => .rz
  | 2 => .ru
  | _ => .rd

/-- Whether a magnitude with kept part `kept` and a discarded part, compared with one half, rounds away from zero. -/
def roundsAway (rm : RMode) (neg : Bool) (kept rem half : Nat) : Bool :=
  match rm with
  | .rne => half < rem || (rem == half && kept % 2 == 1)
  | .rz => false
  | .ru => !neg && rem != 0
  | .rd => neg && rem != 0

/-- m * 2^e rounded to a multiple of 2^q: the multiple's magnitude, and whether it is inexact. -/
def roundAt (rm : RMode) (neg : Bool) (m : Nat) (e q : Int) : Nat × Bool :=
  if q ≤ e then (m * 2 ^ (e - q).toNat, false)
  else
    let sh := (q - e).toNat
    let kept := m / 2 ^ sh
    let rem := m % 2 ^ sh
    (if roundsAway rm neg kept rem (2 ^ (sh - 1)) then kept + 1 else kept, rem != 0)

/-! ## Floating formats (R69, R70) -/

/-- A floating format: exponent bits, fraction bits. -/
structure FFmt where
  eb : Nat
  fb : Nat
  deriving DecidableEq, Repr

def f32 : FFmt := ⟨8, 23⟩
def f16 : FFmt := ⟨5, 10⟩
def bf16 : FFmt := ⟨8, 7⟩

def FFmt.width (f : FFmt) : Nat := f.eb + f.fb + 1
def FFmt.bias (f : FFmt) : Int := (2 ^ (f.eb - 1) : Nat) - 1
def FFmt.expAll (f : FFmt) : Nat := 2 ^ f.eb - 1
/-- The exponent of the last place of a subnormal (R70). -/
def FFmt.emin (f : FFmt) : Int := 1 - f.bias - f.fb
def FFmt.assemble (f : FFmt) (neg : Bool) (e frac : Nat) : Nat :=
  (if neg then 2 ^ (f.eb + f.fb) else 0) + e * 2 ^ f.fb + frac
def FFmt.inf (f : FFmt) (neg : Bool) : Nat := f.assemble neg f.expAll 0
def FFmt.maxFin (f : FFmt) (neg : Bool) : Nat := f.assemble neg (f.expAll - 1) (2 ^ f.fb - 1)
def FFmt.nan (f : FFmt) : Nat := f.assemble false f.expAll (2 ^ (f.fb - 1))
def FFmt.zero (f : FFmt) (neg : Bool) : Nat := f.assemble neg 0 0

/-- A floating value read exactly (R70): a finite value is (-1)^neg * m * 2^e with m > 0. -/
inductive FVal where
  | zero (neg : Bool)
  | fin (neg : Bool) (m : Nat) (e : Int)
  | inf (neg : Bool)
  | nan (signalling : Bool)
  deriving DecidableEq, Repr

/-- The value of raw bits (R70). -/
def FFmt.value (f : FFmt) (x : Nat) : FVal :=
  let s := bitOf x (f.eb + f.fb)
  let e := bitsOf x f.fb f.eb
  let frac := bitsOf x 0 f.fb
  if e = 0 then
    if frac = 0 then .zero s else .fin s frac f.emin
  else if e = f.expAll then
    if frac = 0 then .inf s else .nan (!bitOf frac (f.fb - 1))
  else .fin s (2 ^ f.fb + frac) ((e : Int) - f.bias - f.fb)

/-- NV for a signalling NaN operand (R72). -/
def FVal.snanFlag : FVal → FFlags
  | .nan true => flagNV
  | _ => 0

def FVal.isNan : FVal → Bool
  | .nan _ => true
  | _ => false

def FVal.isZero : FVal → Bool
  | .zero _ => true
  | _ => false

def FVal.isInf : FVal → Bool
  | .inf _ => true
  | _ => false

/-- The value delivered on overflow (R75; the largest finite value under SAT, R89). -/
def FFmt.overflow (f : FFmt) (rm : RMode) (sat neg : Bool) : Nat :=
  if sat then f.maxFin neg
  else match rm with
  | .rne => f.inf neg
  | .rz => f.maxFin neg
  | .ru => if neg then f.maxFin true else f.inf false
  | .rd => if neg then f.inf true else f.maxFin false

/-- rnd of (-1)^neg * m * 2^e into a format, m > 0, with its flags (R75): tininess after rounding, overflow. -/
def FFmt.round (f : FFmt) (rm : RMode) (sat neg : Bool) (m : Nat) (e : Int) : Nat × FFlags :=
  let p := f.fb + 1
  let top : Int := (bitLen m : Int) + e
  let q := max (top - p) f.emin
  let (k0, inexact) := roundAt rm neg m e q
  let (k, q) := if 2 ^ p ≤ k0 then (k0 / 2, q + 1) else (k0, q)
  let free := (roundAt rm neg m e (top - p)).1
  let tiny := top - 1 < 1 - f.bias && !(free == 2 ^ p && top == 1 - f.bias)
  let flags := flagIf inexact flagNX ||| flagIf (inexact && tiny) flagUF
  if k < 2 ^ f.fb then (f.assemble neg 0 k, flags)
  else
    let ex := q + f.bias + f.fb
    if (f.expAll : Int) ≤ ex then (f.overflow rm sat neg, flagOF ||| flagNX)
    else (f.assemble neg ex.toNat (k - 2 ^ f.fb), flags)

/-- An exact value narrowed into a format (R75); a NaN becomes the canonical NaN (R72). -/
def FFmt.pack (f : FFmt) (rm : RMode) (sat : Bool) : FVal → Nat × FFlags
  | .zero n => (f.zero n, 0)
  | .fin n m e => if m = 0 then (f.zero n, 0) else f.round rm sat n m e
  | .inf n => (f.inf n, 0)
  | .nan _ => (f.nan, 0)

/-! ## Exact arithmetic -/

/-- The signed integer of a finite magnitude. -/
def signedOf (neg : Bool) (m : Nat) : Int := if neg then -(m : Int) else m

/-- An integer times 2^e as a value; an exact zero has the sign given. -/
def FVal.ofInt (zeroNeg : Bool) (v e : Int) : FVal :=
  if v = 0 then .zero zeroNeg else .fin (v < 0) v.natAbs e

/-- The sign of an exact zero sum of operands of opposite sign (R75). -/
def zeroSumNeg (rm : RMode) : Bool := rm == .rd

/-- The exact sum and its invalid flag (R72, R75). -/
def addExact (rm : RMode) (a b : FVal) : FVal × FFlags :=
  match a, b with
  | .nan x, .nan y => (.nan false, flagIf (x || y) flagNV)
  | .nan x, _ => (.nan false, flagIf x flagNV)
  | _, .nan y => (.nan false, flagIf y flagNV)
  | .inf s, .inf t => if s = t then (.inf s, 0) else (.nan false, flagNV)
  | .inf s, _ => (.inf s, 0)
  | _, .inf t => (.inf t, 0)
  | .zero s, .zero t => (.zero (if s = t then s else zeroSumNeg rm), 0)
  | .zero _, y => (y, 0)
  | x, .zero _ => (x, 0)
  | .fin s m e, .fin t n g =>
    let c := min e g
    (FVal.ofInt (zeroSumNeg rm)
      (signedOf s (m * 2 ^ (e - c).toNat) + signedOf t (n * 2 ^ (g - c).toNat)) c, 0)

/-- The exact product and its invalid flag (R72, R75). -/
def mulExact (a b : FVal) : FVal × FFlags :=
  match a, b with
  | .nan x, .nan y => (.nan false, flagIf (x || y) flagNV)
  | .nan x, _ => (.nan false, flagIf x flagNV)
  | _, .nan y => (.nan false, flagIf y flagNV)
  | .inf _, .zero _ => (.nan false, flagNV)
  | .zero _, .inf _ => (.nan false, flagNV)
  | .inf s, .inf t => (.inf (s != t), 0)
  | .inf s, .fin t _ _ => (.inf (s != t), 0)
  | .fin s _ _, .inf t => (.inf (s != t), 0)
  | .zero s, .zero t => (.zero (s != t), 0)
  | .zero s, .fin t _ _ => (.zero (s != t), 0)
  | .fin s _ _, .zero t => (.zero (s != t), 0)
  | .fin s m e, .fin t n g => (.fin (s != t) (m * n) (e + g), 0)

/-- Whether a product is 0 times infinity (R72). -/
def isZeroTimesInf (a b : FVal) : Bool := (a.isZero && b.isInf) || (a.isInf && b.isZero)

def FVal.neg : FVal → FVal
  | .zero s => .zero (!s)
  | .fin s m e => .fin (!s) m e
  | .inf s => .inf (!s)
  | .nan q => .nan q

def fadd (f : FFmt) (rm : RMode) (a b : Nat) : Nat × FFlags :=
  let r := addExact rm (f.value a) (f.value b)
  let o := f.pack rm false r.1
  (o.1, r.2 ||| o.2)

def fsub (f : FFmt) (rm : RMode) (a b : Nat) : Nat × FFlags :=
  let r := addExact rm (f.value a) (f.value b).neg
  let o := f.pack rm false r.1
  (o.1, r.2 ||| o.2)

def fmul (f : FFmt) (rm : RMode) (a b : Nat) : Nat × FFlags :=
  let r := mulExact (f.value a) (f.value b)
  let o := f.pack rm false r.1
  (o.1, r.2 ||| o.2)

/-- a * b + c rounded once; 0 times infinity is invalid whatever c holds (R72, R75). -/
def ffma (f : FFmt) (rm : RMode) (a b c : Nat) : Nat × FFlags :=
  let x := f.value a
  let y := f.value b
  let z := f.value c
  if isZeroTimesInf x y then (f.nan, flagNV)
  else
    let p := mulExact x y
    let r := addExact rm p.1 z
    let o := f.pack rm false r.1
    (o.1, p.2 ||| r.2 ||| o.2)

/-! ## Order (R76) -/

/-- The order of R76 on values that are no NaN, as an integer key over raw bits. -/
def FFmt.key (f : FFmt) (x : Nat) : Int :=
  let mag := x % 2 ^ (f.eb + f.fb)
  if bitOf x (f.eb + f.fb) then -(mag : Int) - 1 else mag

def fminmax (f : FFmt) (wantMax : Bool) (a b : Nat) : Nat × FFlags :=
  let x := f.value a
  let y := f.value b
  if x.isNan || y.isNan then (f.nan, x.snanFlag ||| y.snanFlag)
  else if wantMax then (if f.key a < f.key b then b else a, 0)
  else (if f.key b < f.key a then b else a, 0)

/-- The key of a comparison of numbers: -0 equals +0. -/
def FFmt.cmpKey (f : FFmt) (x : Nat) : Int := if (f.value x).isZero then 0 else f.key x

inductive VCmp where
  | eq | ne | lt | le
  deriving DecidableEq, Repr

def fcmp (f : FFmt) (c : VCmp) (a b : Nat) : Bool × FFlags :=
  let x := f.value a
  let y := f.value b
  if x.isNan || y.isNan then (c == .ne, x.snanFlag ||| y.snanFlag)
  else
    let i := f.cmpKey a
    let j := f.cmpKey b
    (match c with
      | .eq => i == j
      | .ne => i != j
      | .lt => i < j
      | .le => i ≤ j, 0)

/-! ## The correctly rounded functions (R75) -/

/-- m * 2^e with a non-zero remainder below its last place, when `sticky`. -/
def withSticky (neg sticky : Bool) (m : Nat) (e : Int) : FVal :=
  if sticky then .fin neg (2 * m + 1) (e - 1) else .fin neg m e

/-- 1 / x (VRCP). -/
def rcpExact (f : FFmt) (x : FVal) : FVal × FFlags :=
  match x with
  | .nan s => (.nan false, flagIf s flagNV)
  | .zero n => (.inf n, flagDZ)
  | .inf n => (.zero n, 0)
  | .fin n m e =>
    let k := bitLen m + f.fb + 4
    (withSticky n (2 ^ k % m != 0) (2 ^ k / m) (-e - k), 0)

/-- m * 2^e with an even exponent and at least k more bits. -/
def evenScale (m : Nat) (e : Int) (k : Nat) : Nat × Int :=
  if e % 2 = 0 then (m * 2 ^ (2 * k), e - 2 * k) else (m * 2 ^ (2 * k + 1), e - (2 * k + 1))

/-- The square root (VSQRT). -/
def sqrtExact (f : FFmt) (x : FVal) : FVal × FFlags :=
  match x with
  | .nan s => (.nan false, flagIf s flagNV)
  | .zero n => (.zero n, 0)
  | .inf false => (.inf false, 0)
  | .inf true => (.nan false, flagNV)
  | .fin true _ _ => (.nan false, flagNV)
  | .fin false m e =>
    let (m', e') := evenScale m e (f.fb + 4)
    let r := isqrt m'
    (withSticky false (r * r != m') r (e' / 2), 0)

/-- 1 / sqrt x (VRSQ): the square root of the floor of 2^k / m, exact only for a power of four. -/
def rsqExact (f : FFmt) (x : FVal) : FVal × FFlags :=
  match x with
  | .nan s => (.nan false, flagIf s flagNV)
  | .zero n => (.inf n, flagDZ)
  | .inf false => (.zero false, 0)
  | .inf true => (.nan false, flagNV)
  | .fin true _ _ => (.nan false, flagNV)
  | .fin false m e =>
    let (m', e') := if e % 2 = 0 then (m, e) else (2 * m, e - 1)
    let k := bitLen m' + 2 * f.fb + 10
    let k := k + k % 2
    let q := 2 ^ k / m'
    let r := isqrt q
    (withSticky false (r * r * m' != 2 ^ k) r (-(e' + k) / 2), 0)

/-- The fixed-point precision of the transcendental functions (log entry 8). -/
def tpBits : Nat := 160

/-- The product of the factors 2^(2^-i) for the set bits of a fraction, most significant first: `frac` holds the
`n` fraction bits left and `root` is the factor of the bit before. -/
def exp2Frac : (n frac root acc : Nat) → Nat
  | 0, _, _, acc => acc
  | n + 1, frac, root, acc =>
    let root := isqrt (root * 2 ^ tpBits)
    let acc := if bitOf frac n then acc * root / 2 ^ tpBits else acc
    exp2Frac n frac root acc

/-- 2^x (VEXP2); x an integer is exact, any other dyadic x gives an irrational result. -/
def exp2Exact (f : FFmt) (x : FVal) : FVal × FFlags :=
  match x with
  | .nan s => (.nan false, flagIf s flagNV)
  | .zero _ => (.fin false 1 0, 0)
  | .inf false => (.inf false, 0)
  | .inf true => (.zero false, 0)
  | .fin n m e =>
    let big : Int := 2 ^ (f.eb + 1)
    if (bitLen m : Int) + e > f.eb + 1 then (.fin false 1 (if n then -big else big), 0)
    else if 0 ≤ e then
      let v : Int := (m * 2 ^ e.toNat : Nat)
      (.fin false 1 (if n then -v else v), 0)
    else
      let d := 2 ^ (-e).toNat
      let v : Int := if n then -(m : Int) else m
      let fl := v / (d : Int)
      let fr := (v % (d : Int)).toNat
      if fr = 0 then (.fin false 1 fl, 0)
      else
        let sh := (-e).toNat
        let top := if sh ≤ tpBits then fr * 2 ^ (tpBits - sh) else fr / 2 ^ (sh - tpBits)
        (withSticky false true (exp2Frac tpBits top (2 * 2 ^ tpBits) (2 ^ tpBits)) (fl - tpBits), 0)

/-- The first `n` fraction bits of log2 of y / 2^(2 * tpBits), for y in [1, 2) in that scale. -/
def log2Frac : (n y acc : Nat) → Nat
  | 0, _, acc => acc
  | n + 1, y, acc =>
    let y2 := y * y / 2 ^ (2 * tpBits)
    if 2 ^ (2 * tpBits + 1) ≤ y2 then log2Frac n (y2 / 2) (2 * acc + 1) else log2Frac n y2 (2 * acc)

/-- log2 x (VLOG2); exact only for a power of two. -/
def log2Exact (_f : FFmt) (x : FVal) : FVal × FFlags :=
  match x with
  | .nan s => (.nan false, flagIf s flagNV)
  | .zero _ => (.inf true, flagDZ)
  | .inf false => (.inf false, 0)
  | .inf true => (.nan false, flagNV)
  | .fin true _ _ => (.nan false, flagNV)
  | .fin false m e =>
    let l := bitLen m - 1
    let ex : Int := (l : Int) + e
    if m = 2 ^ l then (FVal.ofInt false ex 0, 0)
    else
      let n := 128
      let t := ex * (2 ^ n : Nat) + (log2Frac n (m * 2 ^ (2 * tpBits - l)) 0 : Nat)
      (if 0 ≤ t then withSticky false true t.toNat (-n) else withSticky true true (-t - 1).toNat (-n), 0)

/-- One of the unary functions narrowed into its format. -/
def funary (f : FFmt) (g : FFmt → FVal → FVal × FFlags) (rm : RMode) (x : Nat) : Nat × FFlags :=
  let r := g f (f.value x)
  let o := f.pack rm false r.1
  (o.1, r.2 ||| o.2)

/-! ## Element formats (R67, R77, R82, R89) -/

/-- An element format of the vector and output path: an integer of a width and signedness, or a float. -/
inductive EFmt where
  | int (bits : Nat) (signed : Bool)
  | flt (f : FFmt)
  deriving DecidableEq, Repr

def EFmt.width : EFmt → Nat
  | .int b _ => b
  | .flt f => f.width

def EFmt.bytes (f : EFmt) : Nat := f.width / 8

/-- The least and greatest values of an integer format (R67). -/
def intMin (bits : Nat) (signed : Bool) : Int := if signed then -(2 ^ (bits - 1) : Nat) else 0
def intMax (bits : Nat) (signed : Bool) : Int := if signed then (2 ^ (bits - 1) : Nat) - 1 else (2 ^ bits : Nat) - 1

/-- The integer that raw bits of an integer format stand for. -/
def intValue (bits : Nat) (signed : Bool) (x : Nat) : Int :=
  if signed then toSigned bits x else (x % 2 ^ bits : Nat)

/-- A saturating delivery with SA when the value changes (R68). -/
def satDeliver (bits : Nat) (signed : Bool) (v : Int) : Nat × FFlags :=
  let s := satInt v (intMin bits signed) (intMax bits signed)
  (toRaw bits s, flagIf (s != v) flagSA)

/-- The exact value of an element. -/
def EFmt.value (f : EFmt) (x : Nat) : FVal :=
  match f with
  | .int b s => FVal.ofInt false (intValue b s x) 0
  | .flt g => g.value x

/-- A finite value rounded to an integer, and whether that is inexact. -/
def roundInt (rm : RMode) (neg : Bool) (m : Nat) (e : Int) : Int × Bool :=
  let r := roundAt rm neg m e 0
  (signedOf neg r.1, r.2)

/-- VCVT from one element format to another (R77). -/
def convert (src dst : EFmt) (rm : RMode) (x : Nat) : Nat × FFlags :=
  match src, dst with
  | .int b s, .int b' s' => satDeliver b' s' (intValue b s x)
  | .int b s, .flt g => g.pack rm false (FVal.ofInt false (intValue b s x) 0)
  | .flt f, .flt g =>
    let v := f.value x
    let o := g.pack rm false v
    (o.1, v.snanFlag ||| o.2)
  | .flt f, .int b s =>
    match f.value x with
    | .nan _ => (0, flagNV)
    | .zero _ => (0, 0)
    | .inf n => (toRaw b (if n then intMin b s else intMax b s), flagNV)
    | .fin n m e =>
      let r := roundInt rm n m e
      if intMin b s ≤ r.1 && r.1 ≤ intMax b s then (toRaw b r.1, flagIf r.2 flagNX)
      else (toRaw b (satInt r.1 (intMin b s) (intMax b s)), flagNV)

/-- The mode and the saturate bit of an output rounding code (R89). -/
def codeMode (code : Nat) (frm : RMode) : RMode := if bitOf code 3 then frm else RMode.ofCode code
def codeSat (code : Nat) : Bool := bitOf code 2

/-- An exact result v * 2^e rounded into an element format under an output rounding code (R89). DEDUCED, log entry 100. -/
def roundOut (dst : EFmt) (code : Nat) (frm : RMode) (v e : Int) : Nat × FFlags :=
  let rm := codeMode code frm
  match dst with
  | .flt g => g.pack rm (codeSat code) (FVal.ofInt false v e)
  | .int b s =>
    let r := roundInt rm (v < 0) v.natAbs e
    let nx := flagIf r.2 flagNX
    if codeSat code then
      let d := satDeliver b s r.1
      (d.1, nx ||| d.2)
    else (toRaw b r.1, nx)

/-! ## Reductions (R90) -/

/-- One level of the pairwise tree: neighbours join, an absent place gives way. -/
def joinLevel (j : Nat → Nat → Nat × FFlags) : List (Option Nat) → List (Option Nat) × FFlags
  | [] => ([], 0)
  | [x] => ([x], 0)
  | x :: y :: rest =>
    let r := joinLevel j rest
    match x, y with
    | some a, some b => let v := j a b; (some v.1 :: r.1, v.2 ||| r.2)
    | some a, none => (some a :: r.1, r.2)
    | none, b => (b :: r.1, r.2)

/-- The root of the tree over at most 2^fuel places. -/
def joinTree (j : Nat → Nat → Nat × FFlags) : (fuel : Nat) → List (Option Nat) → Option Nat × FFlags
  | 0, xs => (xs.headD none, 0)
  | fuel + 1, xs =>
    match xs with
    | [] => (none, 0)
    | [x] => (x, 0)
    | _ =>
      let l := joinLevel j xs
      let r := joinTree j fuel l.1
      (r.1, l.2 ||| r.2)

/-! ## Plane formats (R80, R85) -/

/-- A plane format: native planes, signedness, and whether blocks carry scales (R80). -/
structure PFmt where
  planes : Nat
  signed : Bool
  scaled : Bool
  deriving DecidableEq, Repr

/-- The plane format of a handle code (R80). -/
def planeFmt : Nat → Option PFmt
  | 0x10 => some ⟨8, true, true⟩
  | 0x11 => some ⟨8, false, true⟩
  | 0x12 => some ⟨4, true, true⟩
  | 0x13 => some ⟨4, false, true⟩
  | 0x14 => some ⟨2, true, true⟩
  | 0x15 => some ⟨1, false, false⟩
  | _ => none

/-- The element format of a handle or V type code (R67, R69). -/
def elemFmt : Nat → Option EFmt
  | 0 => some (.int 8 true)
  | 1 => some (.int 8 false)
  | 2 => some (.int 16 true)
  | 3 => some (.int 16 false)
  | 4 => some (.int 32 true)
  | 5 => some (.flt bf16)
  | 6 => some (.flt f16)
  | 7 => some (.flt f32)
  | _ => none

/-- floor(log2 |x|) of a finite value. -/
def floorLog2 (m : Nat) (e : Int) : Int := (bitLen m : Int) - 1 + e

/-- Whether m * 2^e is below n * 2^g. -/
def magLt (m : Nat) (e : Int) (n : Nat) (g : Int) : Bool :=
  let c := min e g
  m * 2 ^ (e - c).toNat < n * 2 ^ (g - c).toNat

/-- The largest finite magnitude of an element format, for an infinity in R85. -/
def EFmt.maxMag : EFmt → Nat × Int
  | .flt f => (2 ^ (f.fb + 1) - 1, (f.expAll : Int) - 1 - f.bias - f.fb)
  | .int _ _ => (0, 0)

/-- The magnitude an element counts with in a block maximum; zero and NaN have none (R85). -/
def blockMag (src : EFmt) : FVal → Option (Nat × Int)
  | .fin _ m e => some (m, e)
  | .inf _ => some src.maxMag
  | _ => none

/-- The largest magnitude of a block. -/
def blockMax (src : EFmt) : List FVal → Option (Nat × Int)
  | [] => none
  | x :: xs =>
    match blockMag src x, blockMax src xs with
    | some a, some b => if magLt a.1 a.2 b.1 b.2 then some b else some a
    | some a, none => some a
    | none, r => r

/-- One element of a block with exponent e (R85): its q and flags. -/
def planeElem (pf : PFmt) (e : Int) : FVal → Int × FFlags := fun x =>
  let lo : Int := if pf.signed then -((2 ^ (pf.planes - 1) : Nat) - 1) else 0
  let hi : Int := if pf.signed then (2 ^ (pf.planes - 1) : Nat) - 1 else (2 ^ pf.planes : Nat) - 1
  match x with
  | .zero _ => (0, 0)
  | .nan _ => (0, flagNV)
  | .inf n => (if n then lo else hi, flagNV)
  | .fin n m g =>
    let r := roundInt .rne n m (g - e)
    let q := satInt r.1 lo hi
    (q, flagIf (r.2 || q != r.1) flagNX ||| flagIf (q != r.1) flagSA)

/-- A block converted into a plane format: its scale byte, its q values and the flags (R85). DEDUCED, log entry 22. -/
def planeBlock (pf : PFmt) (src : EFmt) (xs : List FVal) : Int × List Int × FFlags :=
  let e : Int :=
    if pf.scaled then
      match blockMax src xs with
      | none => -128
      | some (m, g) => max (floorLog2 m g - (if pf.signed then (pf.planes : Int) - 2 else (pf.planes : Int) - 1)) (-127)
    else 0
  let qs := xs.map (planeElem pf e)
  (e, qs.map (·.1), qs.foldl (fun acc x => acc ||| x.2) 0)

end Sys2Proof.Machine
end

