-- ==== Sys2Proof/Machine/Mem.lean ====
section
/-! DEFINITION. Memory with check bits: sparse bytes in one canonical form, and the error state and poison of each
64-bit word (R42, R190, R242, R267, R285). -/

namespace Sys2Proof.Machine

/-- The error state of a stored word (R190). -/
inductive ErrState where
  | clean | correctable | uncorrectable
  deriving DecidableEq, Repr

/-- The poison bit and the error state of a 64-bit word. -/
structure WordMark where
  poison : Bool
  err : ErrState
  deriving DecidableEq, Repr

/-- The mark of a word that nothing has marked. -/
def WordMark.clean : WordMark := ⟨false, .clean⟩

/-- One memory: bytes by address and marks by word number (address div 8). An address that is not listed holds
byte 0 and a word that is not listed is clean (log entry 2). -/
structure Mem where
  cells : List Host.Cell
  marks : List (Nat × WordMark)
  deriving DecidableEq, Repr

/-- What an unlisted address reads as (log entry 2). -/
def Mem.unlisted : Byte := 0

def Mem.empty : Mem := ⟨[], []⟩

/-- Strictly rising keys, all at or above a bound. -/
def keysRise {α : Type} : (lo : Nat) → List (Nat × α) → Bool
  | _, [] => true
  | lo, (k, _) :: rest => lo ≤ k && keysRise (k + 1) rest

/-- The canonical form: keys strictly rising, and no entry equal to what an unlisted key reads as. -/
def Mem.wf (m : Mem) : Bool :=
  keysRise 0 m.cells && m.cells.all (fun c => c.2 != Mem.unlisted) &&
    keysRise 0 m.marks && m.marks.all (fun c => c.2 != WordMark.clean)

/-- Looks a key up in a sparse list. -/
def lookupKey {α : Type} (dflt : α) : List (Nat × α) → Nat → α
  | [], _ => dflt
  | (k, v) :: rest, a => if k = a then v else lookupKey dflt rest a

/-- Sets a key in a sparse list sorted by key, removing an entry equal to the default. -/
def setKey {α : Type} [DecidableEq α] (dflt : α) : List (Nat × α) → Nat → α → List (Nat × α)
  | [], a, v => if v = dflt then [] else [(a, v)]
  | (k, w) :: rest, a, v =>
    if a < k then (if v = dflt then (k, w) :: rest else (a, v) :: (k, w) :: rest)
    else if a = k then (if v = dflt then rest else (a, v) :: rest)
    else (k, w) :: setKey dflt rest a v

/-- Reads one byte. -/
def Mem.byte (m : Mem) (a : Nat) : Byte := lookupKey Mem.unlisted m.cells a

/-- Writes one byte and leaves every mark. -/
def Mem.setByte (m : Mem) (a : Nat) (v : Byte) : Mem := { m with cells := setKey Mem.unlisted m.cells a v }

/-- The mark of word w. -/
def Mem.mark (m : Mem) (w : Nat) : WordMark := lookupKey WordMark.clean m.marks w

def Mem.setMark (m : Mem) (w : Nat) (x : WordMark) : Mem := { m with marks := setKey WordMark.clean m.marks w x }

/-- The n bytes from address a on, lowest first. -/
def Mem.bytes (m : Mem) : (a n : Nat) → List Byte
  | _, 0 => []
  | a, n + 1 => m.byte a :: m.bytes (a + 1) n

/-- Bytes written from address a on, marks left alone. -/
def Mem.setBytes (m : Mem) : (a : Nat) → List Byte → Mem
  | _, [] => m
  | a, b :: bs => (m.setByte a b).setBytes (a + 1) bs

/-- The little-endian number of a list of bytes (R6). -/
def leNat : List Byte → Nat
  | [] => 0
  | b :: bs => b.toNat + 256 * leNat bs

/-- The n little-endian bytes of a number. -/
def leBytes : (n v : Nat) → List Byte
  | 0, _ => []
  | n + 1, v => BitVec.ofNat 8 v :: leBytes n (v / 256)

/-- The little-endian number in n bytes at address a. -/
def Mem.read (m : Mem) (a n : Nat) : Nat := leNat (m.bytes a n)

/-- Whether word w delivers a poisoned value: uncorrectable, or its poison bit reads 1 (R190). DEDUCED, log entry 25. -/
def Mem.wordPoisoned (m : Mem) (w : Nat) : Bool :=
  (m.mark w).poison || (m.mark w).err == .uncorrectable

/-- The numbers lo, lo + 1, … of n consecutive words. -/
def wordsFrom (lo n : Nat) : List Nat := (List.range n).map (lo + ·)

/-- The word numbers that n bytes at address a touch. -/
def wordsOf (a n : Nat) : List Nat := if n = 0 then [] else wordsFrom (a / 8) ((a + n - 1) / 8 + 1 - a / 8)

/-- Whether any of n bytes at a lies in a word that delivers poison. -/
def Mem.poisoned (m : Mem) (a n : Nat) : Bool := (wordsOf a n).any m.wordPoisoned

/-- The words with a correctable error among those that n bytes at a touch (R190, R348). -/
def Mem.correctables (m : Mem) (a n : Nat) : List Nat := (wordsOf a n).filter fun w => (m.mark w).err == .correctable

/-- The words with an uncorrectable error among those that n bytes at a touch (R363). -/
def Mem.uncorrectables (m : Mem) (a n : Nat) : List Nat :=
  (wordsOf a n).filter fun w => (m.mark w).err == .uncorrectable

/-- The mark of a word after a write that covers some or all of its bytes (R191). -/
def mergeMark (old : WordMark) (whole poison : Bool) : WordMark :=
  if whole then ⟨poison, .clean⟩
  else ⟨old.poison || old.err == .uncorrectable || poison, .clean⟩

/-- Marks the word w after a write of bytes a to a + n - 1 with the poison given (R191). -/
def Mem.markWrite (m : Mem) (a n : Nat) (poison : Bool) (w : Nat) : Mem :=
  m.setMark w (mergeMark (m.mark w) (a ≤ 8 * w && 8 * w + 8 ≤ a + n) poison)

/-- A write of bytes that carries one poison for all of them; partial words merge (R191). -/
def Mem.write (m : Mem) (a : Nat) (bs : List Byte) (poison : Bool) : Mem :=
  (wordsOf a bs.length).foldl (fun x w => x.markWrite a bs.length poison w) (m.setBytes a bs)

/-- A write of the low n bytes of a number. -/
def Mem.writeNat (m : Mem) (a n v : Nat) (poison : Bool) : Mem := m.write a (leBytes n v) poison

/-- Pads a list of bytes with zeros to n. -/
def padBytes (n : Nat) (bs : List Byte) : List Byte := bs.take n ++ List.replicate (n - bs.length) 0

end Sys2Proof.Machine
end

