-- ==== Sys2Proof/Machine/State.lean ====
section
/-! DEFINITION. The state of a Plynmir W3 module as plain data: tiles of placed regions, regions, launches, Lanterns,
queues, tables, memories and the parties outside the schedule, and the state after reset. -/

namespace Sys2Proof.Machine

/-! ## Why a step can stop -/

/-- What stops the model. -/
inductive Fault where
  /-- Raised by `exec` of a slot instruction when the model's field `focus` names a tile that no placed region holds:
  no core can issue the slot. Safe: no run reaches it, because the step names only tiles that exist. -/
  | noCore
  deriving DecidableEq, Repr

/-- What the model gives no meaning. -/
inductive Refusal where
  /-- Raised by an arm of `exec` whose instruction has no meaning yet. Safe: the run ends. -/
  | notModelled (mnemonic : String)
  deriving DecidableEq, Repr

/-! ## Cores -/

/-- A 64-bit register with its taint and poison marks (R92, R96, R98). -/
structure SReg where
  val : Word
  taint : Bool
  poison : Bool
  deriving DecidableEq, Repr

def SReg.zero : SReg := ⟨0, false, false⟩

/-- A predicate with its marks. -/
structure QReg where
  val : Bool
  taint : Bool
  poison : Bool
  deriving DecidableEq, Repr

def QReg.zero : QReg := ⟨false, false, false⟩

/-- One hardware loop level (R110, R129). -/
structure LoopLevel where
  start : Nat
  last : Nat
  cnt : Nat
  supp : Bool
  cdepth : Nat
  deriving DecidableEq, Repr

/-- The kinds of taken transfer (R122, R306). -/
inductive XferKind where
  | br | call | ret | jal | jr | eret
  deriving DecidableEq, Repr

/-- A taken transfer: its target, the delay bundles still to issue, and CDEPTH at its issue (R122, R130). -/
structure Transfer where
  kind : XferKind
  target : Nat
  left : Nat
  cdepth : Nat
  deriving DecidableEq, Repr

/-- What a bundle's slots ask of the choice of the next bundle, applied once the bundle has issued (R130, R356). -/
inductive Ctl where
  | loop (lvl : LoopLevel)
  | xfer (t : Transfer)
  | goto (pc : Nat)
  deriving DecidableEq, Repr

/-- The clock whose cycles a delay is counted in (R5); `ref` counts schedule cycles. -/
inductive Dom where
  | ref | ctl | mat | vec | cpy
  deriving DecidableEq, Repr

/-- The start of cycle `at_` of a domain, numbered from the launch. -/
structure Due where
  dom : Dom
  at_ : Nat
  deriving DecidableEq, Repr

/-- A change of state that lands at a later cycle (R99, R147, R194). -/
inductive Effect where
  | reg (d : SOp) (v : SReg)
  | pair (k : Fin 8) (v : QReg)
  | breg (n : Fin 4) (v : BitVec 32)
  | agSet (n : Fin 16) (p c : Word)
  | agStr (n : Fin 16) (s : Word)
  | agBase (n : Fin 16) (v : BitVec 22)
  | agBw (n : Fin 16) (v : BitVec 2)
  | agPos (n : Fin 16) (ii oi : BitVec 12)
  | handle (n : Fin 32) (v : BitVec 256) (poison : Bool)
  | field (n : Fin 32) (f : Fin 19) (v : Word)
  | scale (n : Fin 4) (v : BitVec 2048) (poison : BitVec 32)
  | ym (n : Fin 4) (v : BitVec 32)
  | xm (n : Fin 4) (v : BitVec 32)
  | vmask (n : Fin 8) (v : BitVec 64)
  | special (idx : BitVec 12) (v : Word)
  | flags (f : BitVec 6)
  | route (e : Fin 16) (v : Word)
  | act (e : Fin 16) (v : Nat)
  | tags (stag etag : Option (BitVec 8))
  | recBit (v : Bool)
  | replayBit (v : Bool)
  | bank (b : BankSel) (st : BankState)
  deriving DecidableEq, Repr

/-- A landing: when, and the number of the slot issue it comes from, which orders landings of one cycle (R40). -/
structure Landing where
  due : Due
  seq : Nat
  eff : Effect
  deriving DecidableEq, Repr

/-- The scalar state of a tile or Lantern (R92 to R95, R110, R125). -/
structure Core where
  s : Vector SReg 48
  o : Vector SReg 8
  l : SReg
  q : Vector QReg 16
  b : Vector (BitVec 32) 4
  cdepth : Nat
  /-- Active loop levels, innermost first. -/
  loops : List LoopLevel
  pc : Nat
  xfer : Option Transfer
  /-- The bundle at the pc is the target of a taken transfer (R124). -/
  target : Bool
  /-- The model's own: what the slots of the bundle being issued ask of the next bundle. -/
  ctl : Option Ctl
  lands : List Landing
  /-- The model's own: slots issued so far, which numbers them, and the control cycle in which the last result of an
  S slot, RDCYC or RDWALL lands (R274). -/
  seq : Nat
  sLast : Nat
  deriving DecidableEq, Repr

def Core.reset : Core :=
  { s := Vector.replicate 48 .zero, o := Vector.replicate 8 .zero, l := .zero, q := Vector.replicate 16 .zero,
    b := Vector.replicate 4 0, cdepth := 0, loops := [], pc := 0, xfer := none, target := false, ctl := none, lands := [], seq := 0, sLast := 0 }

/-! ## Tiles -/

/-- The unit where a failure arose, if it is not the reporting tile: LTYPE, LCOL, LROW, LSITE (R362). -/
structure Loc where
  ltype : Nat
  lcol : Nat
  lrow : Nat
  lsite : Nat
  deriving DecidableEq, Repr

/-- The recorded fault of a tile or Lantern (R107), with the unit that the region fault record will name. -/
structure FaultRec where
  valid : Bool
  slot : Nat
  code : Nat
  faddr : Word
  fcyc : Nat
  loc : Option Loc
  deriving DecidableEq, Repr

def FaultRec.none : FaultRec := ⟨false, 0, 0, 0, 0, .none⟩

/-- An address generator (R138). -/
structure Gen where
  bw : BitVec 2
  base : BitVec 22
  ocnt : BitVec 12
  icnt : BitVec 12
  ostr : BitVec 24
  istr : BitVec 24
  oi : BitVec 12
  ii : BitVec 12
  deriving DecidableEq, Repr

def Gen.reset : Gen := ⟨0, 0, 0, 0, 0, 0, 0, 0⟩

/-- A tensor handle with its poison mark (R137, R141). -/
structure Handle where
  bits : BitVec 256
  poison : Bool
  deriving DecidableEq, Repr

/-- A scale register with one poison mark per 8 bytes (R137, R144). -/
structure Scale where
  bytes : BitVec 2048
  poison : BitVec 32
  deriving DecidableEq, Repr

/-- One output of an accumulator set (R158). -/
structure AccCell where
  acc : Acc
  psn : Bool
  dcnt : Nat
  deriving DecidableEq, Repr

def AccCell.reset : AccCell := ⟨0, false, 0⟩

/-- One accumulator set: the outputs that are not zero, by index 32 * r + c, and STEPC (R158). -/
structure AccSet where
  cells : List (Nat × AccCell)
  stepc : Nat
  deriving DecidableEq, Repr

def AccSet.reset : AccSet := ⟨[], 0⟩

/-- A mesh word with its tag, poison mark and header bit (R308). -/
structure MeshWord where
  data : MeshData
  tag : BitVec 8
  poison : Bool
  header : Bool
  deriving DecidableEq, Repr

/-- The inputs of a switch (R308). -/
inductive Lane where
  | n | e | s | w | snd
  deriving DecidableEq, Repr

/-- The elastic buffer that holds a word: the receiving site, edge and gateway, whether drift makes the delivery
poisoned, and three cycles of the receiver's SCY: `due`, at which the stamp releases the word, `arrive`, at which the
word comes to the buffer, and `cap`, to which the buffer can hold it (R344, R346). -/
structure Seam where
  site : Nat
  edge : Nat
  gate : Nat
  late : Bool
  due : Nat
  arrive : Nat
  cap : Nat
  deriving DecidableEq, Repr

/-- A word that will be present at a switch input in schedule cycle `at_` of the tile's cluster, and the seam buffer
that it waits in, if any. -/
structure Arrival where
  lane : Lane
  at_ : Nat
  word : MeshWord
  seam : Option Seam
  deriving DecidableEq, Repr

/-- States of a streaming slot in the order of their codes (R232, R339). -/
inductive SlotSt where
  | empty | fill | ready | drain
  deriving DecidableEq, Repr

inductive WinMode where
  | free | copy | streaming
  deriving DecidableEq, Repr

/-- A dimension of a descriptor: extent and the two strides (R223). -/
structure Dim where
  ext : Nat
  sstr : Int
  bstr : Int
  deriving DecidableEq, Repr

/-- A window of a tile (R228 to R232, R339). `chk` holds the need cycle of a pending check, `raised` whether it has
raised its stall request. -/
structure Window where
  mode : WinMode
  cp : Fin 2
  st : Vector SlotSt 2
  out : Bool
  chk : Option Nat
  chkPar : Fin 2
  raised : Bool
  /-- Transfers started, and transfers released (in) or handed over (out). -/
  done : Nat
  released : Nat
  pend : Nat
  /-- The descriptor of a streaming window: the handle with BVA' for BVA, the list as read, the STAGE's slot and its
  bundle's schedule cycle. -/
  handle : BitVec 256
  dims : List Dim
  slot : Nat
  iss : Nat
  n : Nat
  adv : Int
  s1off : Nat
  deriving DecidableEq, Repr

def Window.reset : Window :=
  { mode := .free, cp := 0, st := Vector.replicate 2 .empty, out := false, chk := none, chkPar := 0, raised := false,
    done := 0, released := 0, pend := 0, handle := 0, dims := [], slot := 0, iss := 0, n := 0, adv := 0, s1off := 0 }

/-- The operations of atomics (R134, R247, R320). -/
inductive AtomOp where
  | add | min | max | and | or | xor | swap | cas
  deriving DecidableEq, Repr

/-- What an outstanding command of a copy engine does (R231, R242 to R247). -/
inductive CmdKind where
  | cpyin | cpyout
  | cpyloc (src : Nat)
  | cfill (pattern : Word)
  | catom (op : AtomOp) (operand : Word) (ret : Option Nat)
  | fill (slot : Fin 2)
  | drain (slot : Fin 2)
  deriving DecidableEq, Repr

/-- An outstanding command: its window, phase, descriptor and total. -/
structure Cmd where
  kind : CmdKind
  win : Fin 16
  phase : Nat
  /-- The number of its slot issue, which orders the commands of a tile. -/
  ord : Nat
  slot : Nat
  /-- The schedule cycle of the bundle that issued it. -/
  iss : Nat
  sbase : Int
  bva : Int
  dims : List Dim
  total : Nat
  /-- The wall cycle from which the model's own engine lands it (log entry 6). -/
  ready : Nat
  deriving DecidableEq, Repr

/-- A shadow run: bytes of one command of an unpublished phase at a VA, each with the poison that it came with, and the slot
and the schedule cycle of the command's bundle (R235, R363, R376). -/
structure ShadowRun where
  phase : Nat
  ord : Nat
  slot : Nat
  iss : Nat
  va : Nat
  data : List Byte
  poison : List Bool
  deriving DecidableEq, Repr

/-- A CATOM record of an unpublished phase (R235, R247, R376). -/
structure CatomRec where
  phase : Nat
  ord : Nat
  slot : Nat
  iss : Nat
  va : Nat
  op : AtomOp
  operand : Word
  deriving DecidableEq, Repr

/-- What an M instruction in flight has latched (R146, R163). -/
structure MCtx where
  op : Instr
  seq : Nat
  slot : Nat
  z : Fin 2
  ha : BitVec 256
  hb : BitVec 256
  ym : BitVec 32
  xm : BitVec 32
  frm : RMode
  /-- The matrix cycle that its timeline counts from. -/
  base : Nat
  steps : Nat
  /-- The schedule cycle of its bundle. -/
  iss : Nat
  /-- Matrix cycles of the count-read prefix of MMULB, and its rows per group, 0 for the other instructions; the
  groups' step counts as read, by group, and the groups whose count word was bad. -/
  prefix_ : Nat
  group : Nat
  counts : List (Nat × Nat)
  badGroups : List Nat
  deriving DecidableEq, Repr

/-- One row of an operand at one step, as fetched: its plane words, whether one is poisoned, and the exponent and poison
of its blocks along the step (R81, R83). -/
structure PlaneRow where
  words : List Nat
  bad : Bool
  exps : List (Option Int × Bool)
  deriving DecidableEq, Repr

/-- What the array has fetched for one step of a multiplication: the step, the schedule cycle and the fidelity level of
its fetch, the rows of both operands, and the corruptions that strike its partials (R163, R167, R183). -/
structure StepData where
  step : Nat
  at_ : Nat
  level : Nat
  a : List PlaneRow
  b : List PlaneRow
  errs : List Residue
  deriving DecidableEq, Repr

/-- One contribution to an accumulator: index 32 * r + c, the amount in units of 2^-256, whether it poisons the
output, and how many discards it adds (R167, R176). -/
structure Contrib where
  idx : Nat
  amount : Int
  psn : Bool
  disc : Nat
  deriving DecidableEq, Repr

/-- A write of one line or part of one: address, bytes (none where a byte is not written) and poison by byte. -/
structure LineWrite where
  addr : Nat
  bytes : List (Option Byte)
  poison : List Bool
  deriving DecidableEq, Repr

/-- What an M instruction does at one of its cycles (R163, R188): `write` and `expand` give the matrix cycle of
visibility. -/
inductive MAct where
  | count (q addr : Nat)
  | fetch (steps : List Nat) (land : Nat)
  /-- Steps fetched land (R163). -/
  | steps (ds : List StepData)
  | rawRow (r : Nat)
  | readSet
  | pack (step : Nat)
  | unpack (step : Nat)
  /-- The rows that MUNPK has fetched for a step are written, and kept until the write is visible (R374). -/
  | expand (step : Nat) (rows : List PlaneRow) (vis : Nat)
  | hold (step : Nat) (rows : List PlaneRow)
  | write (ws : List LineWrite) (vis : Nat)
  | land (cs : List Contrib)
  | clear (z : Fin 2)
  deriving DecidableEq, Repr

/-- A pending act of an M instruction; `mseq` names the instruction's latched context. -/
structure MTask where
  due : Due
  mseq : Nat
  act : MAct
  deriving DecidableEq, Repr

/-- A scratchpad write whose visibility cycle has not come (R189): the byte address of its access, a word, the bytes it
covers, their data and poison, and the instruction it belongs to. -/
structure PWrite where
  due : Due
  seq : Nat
  slot : Nat
  mport : Bool
  addr : Nat
  word : Nat
  mask : BitVec 8
  data : Word
  poison : Bool
  deriving DecidableEq, Repr

/-- What a V instruction has latched at issue (R194). -/
structure VCtx where
  op : Instr
  addrA : Int
  addrB : Int
  addrD : Int
  mask : BitVec 64
  frm : RMode
  o1 : SReg
  o2 : SReg
  deriving DecidableEq, Repr

/-- An access of the S, K, V, C or L parties to the access port (R185, R186). -/
inductive AccOp where
  | load (size : Nat) (signed : Bool) (addr : Nat) (d : SOp)
  | store (size addr : Nat) (data : Word) (poison : Bool)
  | atom (op : AtomOp) (addr : Nat) (b expected : SReg) (d : SOp)
  | hld (n : Fin 32) (addr : Nat)
  | hst (addr : Nat) (v : BitVec 256) (poison : Bool)
  | scl (n : Fin 4) (addr : Nat)
  | vread (v : VCtx)
  | vwrite (ws : List LineWrite) (effs : List Effect)
  | gwindow (v : VCtx) (idx : List Nat) (data : List Byte) (cyc : Nat) (got : List (Nat × Byte × Bool)) (pz : List Bool)
  | dlist (cmd : Instr) (h hs : BitVec 256) (a b : SReg) (phase : Nat)
  /-- A SADV or CATOM that waits behind the C slot of its bundle that reads a list (R231): its source values and the
  address of its slot. -/
  | engine (cmd : Instr) (srcs : List Word) (addr phase : Nat)
  | send (addr : Nat) (k : Nat) (tag : BitVec 8)
  | recv (addr : Nat) (k : Nat) (chk lnk : Bool)
  | header (data : MeshData) (tag : BitVec 8) (poison : Bool)
  | serve (lane : Lane) (word : MeshWord)
  /-- A header word that came through a wafer-link port, with its source module and number (R266). -/
  | portServe (port : Fin 32) (modid seq : Nat) (word : MeshWord)
  deriving DecidableEq, Repr

/-- A decided access: its cycle, the slot issue it belongs to, its position, and its issue cycle (SCY and control
cycle index). DEDUCED, log entry 44. -/
structure Access where
  due : Due
  seq : Nat
  slot : Nat
  iss : Nat
  ictl : Nat
  op : AccOp
  deriving DecidableEq, Repr

/-- Whether a tile issues bundles. -/
inductive RunState where
  | running
  | waiting (until_ : Nat)
  | armed
  | stopped
  | done
  deriving DecidableEq, Repr

/-- A record of a tape, before it is laid out in words (R270). -/
inductive TRec where
  | cmd (at_ : Nat) (slot : Nat) (word : BitVec 32)
  | imm (v : Word)
  deriving DecidableEq, Repr

/-- A STATE point: the switch point, the resume address, the address of the PSWITCH's slot, and whether the tape ends
there with PARTIAL. -/
structure TapePoint where
  n : Nat
  next : Nat
  addr : Nat
  leaving : Bool
  deriving DecidableEq, Repr

/-- The recorder of a tile (R271 to R274). -/
structure Recorder where
  /-- STATUS.REC and STATUS.TINV. REC stays 1 until TEND, also where the tape has ended before (R106, R274). -/
  recBit : Bool
  tinv : Bool
  /-- A tape exists, and it is still open. -/
  exists_ : Bool
  open_ : Bool
  /-- Slots of the present bundle are within the span. -/
  span : Bool
  variant : Nat
  fid : Nat
  reason : Nat
  invCyc : Nat
  invAddr : Nat
  partial_ : Bool
  ended : Bool
  /-- Record words written so far. -/
  nrec : Nat
  /-- Schedule cycle of the previous CMD written. -/
  last : Nat
  /-- Repeat compression: the loop depth at which a body is open, the body's records, whether it was written, the
  records of the present iteration, the period and strides, and the matched iterations. -/
  depth : Nat
  body : List TRec
  cur : List TRec
  period : Option Nat
  strides : List Word
  reps : Nat
  /-- Registers written within the span, as R279 numbers them, and predicates. -/
  wmask : BitVec 57
  wqmask : BitVec 16
  /-- The header is written. -/
  headed : Bool
  /-- A STATE point at a PSWITCH of the bundle being issued (R279, R281). -/
  point : Option TapePoint
  deriving DecidableEq, Repr

def Recorder.reset : Recorder :=
  { recBit := false, tinv := false, exists_ := false, open_ := false, span := false, variant := 0, fid := 0,
    reason := 0, invCyc := 0, invAddr := 0, partial_ := false, ended := false, nrec := 0, last := 0, depth := 0,
    body := [], cur := [], period := none, strides := [], reps := 0, wmask := 0, wqmask := 0,
    headed := false, point := none }

/-- A command of a tape that waits for its cycle: schedule cycle, slot, word, operands, and the byte offset of its
record. -/
structure ReplayCmd where
  at_ : Nat
  slot : Nat
  word : BitVec 32
  imms : List Word
  off : Nat
  deriving DecidableEq, Repr

/-- The replay engine of a tile (R277 to R282). -/
structure Replayer where
  /-- STATUS.REPLAY, and whether commands are taken from the tape. -/
  bit : Bool
  active : Bool
  /-- The tape was accepted at the load. -/
  ready : Bool
  /-- Taper word of the tape's header, the next record word, the cycle of the last command, the commands since the
  last boundary of repeats, and the commands read ahead. -/
  base : Nat
  pos : Nat
  last : Nat
  body : List ReplayCmd
  queue : List ReplayCmd
  /-- Where the present run of records began, at the start of replay or after a change of tape: the record word, the
  schedule cycle and the STATE record there, from which the engine reads again what it has read (R374). -/
  org : Nat
  orgAt : Nat
  orgState : Option Nat
  /-- Taper word of the last STATE met, and the cycle at which END resumes fetch. -/
  stateAt : Option Nat
  endAt : Option Nat
  /-- The address at which fetch resumes after a change of variant, in place of the STATE record's (R281). -/
  enter : Option Nat
  /-- Cycle and slot of the last command read, whether it is a HALT, and whether the last record read is a STATE
  (R270). -/
  prev : Option (Nat × Nat × Bool)
  stateLast : Bool
  /-- Patch deltas. -/
  pd : List (Nat × Word)
  deriving DecidableEq, Repr

def Replayer.reset : Replayer :=
  { bit := false, active := false, ready := false, base := 0, pos := 0, last := 0, body := [], queue := [], org := 0,
    orgAt := 0, orgState := none, stateAt := none, endAt := none, enter := none, prev := none, stateLast := false, pd := [] }

/-- Power state of a register bank: its state, and a wake in progress (R102, R359). -/
structure Bank where
  st : BankState
  wake : Option Due
  deriving DecidableEq, Repr

/-- A tile of the extent of a placed region. -/
structure Tile where
  /-- Serpentine index of the site, in-cluster coordinates, physical row and column, in-cluster index and global
  live tile number (R105, R327, R328). -/
  region : Nat
  cluster : Nat
  site : Nat
  tx : Nat
  ty : Nat
  prow : Nat
  hix : Nat
  glt : Nat
  posn : Nat
  lid : Vector Nat 8
  core : Core
  run : RunState
  code : Mem
  sp : Mem
  tape : Mem
  fflags : BitVec 6
  frm : BitVec 2
  cause : FaultRec
  /-- A precise fault has stopped the tile: code, FADDR, FCYC, for the choice of R361. -/
  halt : FaultRec
  bank1 : Bank
  bank2 : Bank
  bankclr : Bool
  variant : Nat
  gens : Vector Gen 16
  /-- The last schedule cycle in which a position landed, and the generators without the positions that landed in it
  (R151). -/
  agPrev : Option (Nat × Vector Gen 16)
  handles : Vector Handle 32
  scales : Vector Scale 4
  ym : Vector (BitVec 32) 4
  xm : Vector (BitVec 32) 4
  vm : Vector (BitVec 64) 8
  acc : Vector AccSet 2
  slerr : Vector Nat 4
  spceCount : Nat
  spceLast : Nat
  csceCount : Nat
  csceLast : Nat
  csceTape : Bool
  /-- A correction has been counted in SPCE or CSCE in the present reference cycle (R348). -/
  spceNow : Bool
  csceNow : Bool
  /-- The M paths: latched instructions, their pending acts, and the last working cycle of the array, output and
  conversion paths. -/
  mctx : List MCtx
  mtasks : List MTask
  mbusy : Vector Nat 3
  pendFid : Option (Nat × Nat)
  /-- The vector cycle in which each vector unit last accepted an instruction. -/
  vbusy : Vector (Option Nat) 2
  accs : List Access
  /-- The model's own: banks whose access port is taken in the present reference cycle (R186). -/
  claims : List Nat
  wbuf : List PWrite
  wins : Vector Window 16
  cmds : List Cmd
  shadow : List ShadowRun
  catoms : List CatomRec
  routes : Vector Word 16
  act : Vector Nat 16
  stag : BitVec 8
  etag : BitVec 8
  arrivals : List Arrival
  rq : List MeshWord
  rec_ : Recorder
  rep : Replayer
  /-- PWRLVL's own fields of the tile (R354). -/
  nsw : Nat
  stay : Bool
  lastLvl : Nat
  /-- Corruptions of array partials still to come (R167). -/
  residues : List Residue
  /-- The first deferred fault since the last completed boundary (R361, R363). -/
  deferred : FaultRec
  deriving DecidableEq, Repr

/-! ## Regions and launches -/

/-- Divisors of the four domains (R5). -/
structure Divs where
  ctl : Nat
  mat : Nat
  vec : Nat
  cpy : Nat
  deriving DecidableEq, Repr

/-- Clock state of a cluster (R350 to R353): the divisors in force since schedule cycle `org`, the number of the
domain cycle that is running in each domain, and the generators. -/
structure Clock where
  div : Divs
  org : Nat
  ctl : Nat
  mat : Nat
  vec : Nat
  cpy : Nat
  liveB : Bool
  pend : Option Divs
  target : Option Divs
  progAt : Nat
  /-- A handover under way: the cycle at which the divisors change, and the new set. -/
  handover : Option (Nat × Divs)
  deriving DecidableEq, Repr

/-- A cluster of a placed region. -/
structure Cluster where
  site : Nat
  ox : Nat
  oy : Nat
  scy : Nat
  /-- Cycles left of a REALIGN hold, and those held since it began or since the last sample (R347). -/
  hold : Nat
  held : Nat
  clk : Clock
  fid : Nat
  grant : Nat
  variant : Nat
  /-- Changes of grant on their way: schedule cycle and level (R355). -/
  grants : List (Nat × Nat)
  /-- Reference cycles that the cluster's clock has still to gain (positive) or lose (R344). -/
  slip : Int
  deriving DecidableEq, Repr

/-- Who raised a stall request (R25). -/
inductive StallBy where
  | window (tile : Nat) (w : Fin 16)
  | publish
  | lantern
  deriving DecidableEq, Repr

/-- A stall request: raised in a wall cycle and withdrawn in a later one (R25). -/
structure Stall where
  by_ : StallBy
  raised : Nat
  withdrawn : Option Nat
  deriving DecidableEq, Repr

/-- The last completed boundary (R365). -/
structure Boundary where
  num : Nat
  scy : Nat
  phase : Nat
  variant : Nat
  slerr : List (Vector Nat 4)
  deriving DecidableEq, Repr

/-- A publish in progress: the phase it closed, the boundary it marks, and whether it waits, merges, propagates. -/
structure Publish where
  phase : Nat
  /-- The schedule cycle at which it closed the phase. -/
  scy : Nat
  boundary : Option Nat
  /-- Wall cycle from which the model's own logic merges (log entry 6). -/
  ready : Nat
  /-- Wall cycle from which the model's own logic ends the propagation (log entry 6), once merged. -/
  merged : Option Nat
  final : Bool
  deriving DecidableEq, Repr

/-- Why and when a region stops (R28, R297, R372). -/
structure HaltReq where
  at_ : Nat
  deriving DecidableEq, Repr

/-- What the halt of a region held on one tile: the results in flight with their landing cycles (R101), and the state words
of its windows (R339). -/
structure HeldTile where
  flights : List (Nat × Landing)
  windows : List Word
  deriving DecidableEq, Repr

/-- The fault record of a region (R362), with the wall cycle of its halt and what the halt held on its tiles, by POSN, which
R101, R335 and R339 put into it. DEDUCED, log entry 103. -/
structure RegionFault where
  tries : Nat
  code : Nat
  ltype : Nat
  lcol : Nat
  lrow : Nat
  lsite : Nat
  addr : Word
  fcyc : Nat
  trans : Nat
  glt : Nat
  wcy : Nat
  held : List HeldTile
  deriving DecidableEq, Repr

def RegionFault.zero : RegionFault := ⟨0, 0, 0, 0, 0, 0, 0, 0, 0, 0, 0, []⟩

/-- The region fault record that a north-west site shows while no region is placed there, with its BOUND (R362). -/
structure PlacedFault where
  fault : RegionFault
  bound : Nat
  deriving DecidableEq, Repr

/-- What a region is doing as a whole. -/
inductive RegionPhase where
  /-- Being loaded, until the wall cycle given; then loaded. -/
  | loading (until_ : Nat)
  | loaded
  /-- Waiting for the wall cycle of WAITW (R343). -/
  | armed (wt : Nat)
  | running
  /-- A halt has taken effect. -/
  | halted
  /-- HALT has issued; results and copies complete (R372). -/
  | ending (scy : Nat)
  /-- The completion publish is merging (R257). -/
  | publishing (scy : Nat)
  /-- A snapshot is being saved, until the wall cycle given. -/
  | saving (hard : Bool) (until_ : Nat)
  /-- Halted, with a retry to come at the wall cycle given (R368). -/
  | retryWait (until_ : Nat)
  /-- The completion publish is done; the record is still to be written (R257). -/
  | finished (scy : Nat)
  deriving DecidableEq, Repr

/-- A placed region (R21, R338, R362). -/
structure Region where
  launch : Nat
  nwx : Nat
  nwy : Nat
  cw : Nat
  ch : Nat
  tw : Nat
  th : Nat
  /-- Modules of the launch group and this module's index in it (R105). -/
  mods : Nat
  modIx : Nat
  phase : RegionPhase
  clusters : List Cluster
  stalls : List Stall
  haltReq : Option HaltReq
  /-- Region record (R338). -/
  frozen : Nat
  nfrz : Nat
  wreq : Nat
  preq : Nat
  ebal : Int
  echg : Nat
  expiry : Option Nat
  leaseLevel : Option Nat
  wasFrozen : Bool
  /-- Bulk memory phase, publishes and poison (R235, R236, R363). -/
  bphase : Nat
  /-- Publishes under way, oldest first. -/
  publishes : List Publish
  poison : Bool
  /-- A publish of the interval has been suppressed: what the region still publishes before it halts is dropped (R363). -/
  suppressed : Bool
  boundary : Boundary
  /-- The wall cycle at which the last stop took effect (R28, R373). -/
  stopW : Nat
  /-- The cycle h of the HALT that has issued, which a hard pre-emption after it takes along (R297, R372). -/
  endAt : Option Nat
  fault : RegionFault
  launchFault : Nat
  retrying : Bool
  softReq : Option Nat
  hardReq : Bool
  parkAfter : Bool
  deriving DecidableEq, Repr

/-- A page of a window map (R220, R330). -/
structure Page where
  kind : Nat
  frame : Nat
  va : Nat
  hc : Bool
  rp : Bool
  ap : Bool
  wt : Bool
  ro : Bool
  rd : Bool
  size : Nat
  deriving DecidableEq, Repr

/-- A switch point or replay entry: addresses in the dense, medium and relaxed variants. -/
structure VarAddrs where
  dense : Nat
  medium : Nat
  relaxed : Nat
  deriving DecidableEq, Repr

/-- A loop-table level (R332). -/
structure LoopEntry where
  kind : Nat
  axis : Nat
  ext : Nat
  deriving DecidableEq, Repr

/-- The timetable image of a launch, as read at acceptance (R61 to R64, R330 to R333, R364). -/
structure Image where
  flags : Nat
  entry : Nat
  maxintv : Nat
  mapclass : Nat
  fidelity : Nat
  tthash : Word
  divs : Word
  code : List Byte
  switches : List VarAddrs
  power : List Nat
  loops : List LoopEntry
  replays : List (VarAddrs × Nat)
  patches : List (Nat × Nat)
  guards : List (Nat × Word)
  pages : List Page
  data : Nat × List Byte
  deriving DecidableEq, Repr

/-- The launch descriptor (R293). -/
structure Descriptor where
  imageVa : Nat
  argsVa : Nat
  nargs : Nat
  evpre : Nat
  group : Nat
  saveVa : Nat
  statusVa : Nat
  ecap : Nat
  efill : Nat
  ecost : Nat
  place : Option Nat
  deriving DecidableEq, Repr

/-- States of a launch (R294, R296, R297, R304). -/
inductive LaunchState where
  | waiting | running | parked | ended
  deriving DecidableEq, Repr

/-- How a launch was pre-empted: soft at a boundary, where it keeps the state of its tiles that a soft snapshot leaves out,
or hard with its snapshot at SAVE; it keeps the region record in both cases (R297, R362, R373; log entry 9). -/
inductive Kept where
  | soft
  | hard
  deriving DecidableEq, Repr

/-- A Lamplighter sample register (R345). -/
structure Lamp where
  over_ : Bool
  nsamp : Nat
  edgemax : Nat
  drift : Nat
  deriving DecidableEq, Repr

def Lamp.zero : Lamp := ⟨false, 0, 0, 0⟩

/-- A launch (R293 to R298). -/
structure Launch where
  id : Nat
  queue : Nat
  replay : Bool
  serial : Bool
  byInsn : Bool
  evt : Nat
  tapeVa : Nat
  desc : Descriptor
  img : Image
  args : List Word
  state : LaunchState
  /-- Class 0 to 3, or 4 for the exhausted set E. -/
  cls : Nat
  age : Nat
  order : Nat
  preempted : Bool
  kept : Option Kept
  keptRegion : Option Region
  keptTiles : List Tile
  /-- What the blocks of each tile record have no room for, which the launch keeps: the ends of the engine block, of the
  in-flight block and of the paths (log entry 102). -/
  keptSpill : List (List (List Byte))
  keptLamps : List Lamp
  tapeCode : Nat
  placedAt : Nat
  /-- The scheduler has chosen it once: a refusal at placement is no longer made (R295). -/
  chosen : Bool
  ebal : Int
  echg : Nat
  fault : Nat
  /-- The balance was short at the last check, which is repeated after the next update (log entry 24). -/
  short : Bool
  /-- A frozen lease: its level and the wall cycles that remain (R297). -/
  lease : Option (Nat × Nat)
  /-- The tapes have been copied back; the completion event is still to be raised (R268, R257). -/
  tapeDone : Bool
  evDue : Bool
  deriving DecidableEq, Repr

/-! ## Lanterns and queues -/

/-- One place of a byte: the kind of frame and the address (R220). -/
structure Place where
  kind : Nat
  addr : Nat
  deriving DecidableEq, Repr

/-- What a device access of a Lantern has still to do: the data of a load or an atomic, performed at its issue, return to
a register; a store reaches its frames (R100, R260). -/
inductive DevKind where
  | load (d : SOp) (v : Word)
  | store (size : Nat) (data : Word)
  deriving DecidableEq, Repr

/-- The access, the frames of its bytes, its place in program order, the slot issue it belongs to, the wall cycle from
which the model lets it end by itself (log entry 6), and its issue cycle. -/
structure DevAccess where
  kind : DevKind
  pieces : List (Place × Nat)
  ord : Nat
  seq : Nat
  ready : Nat
  iss : Nat
  deriving DecidableEq, Repr

/-- A cached translation: VA page and the entry found (R288). -/
structure TlbEntry where
  vpage : Nat
  level : Nat
  entry : Nat
  deriving DecidableEq, Repr

/-- An EVWAIT that holds its bundle: its slot, event and value, the counter as read once it was there, and the Lantern's
cycle in which it was read (R301). -/
structure LWait where
  slot : Nat
  ev : Nat
  value : Word
  got : Option Word
  cyc : Nat
  deriving DecidableEq, Repr

/-- A Lantern (R284 to R287, R92). -/
structure Lantern where
  core : Core
  sram : Mem
  halted : Bool
  exc : Bool
  run : Bool
  lpc : BitVec 32
  lvec : BitVec 32
  lepc : BitVec 32
  lcause : FaultRec
  root : Nat
  mmuOn : Bool
  tlb : List TlbEntry
  dev : List DevAccess
  devOrd : Nat
  waits : List LWait
  cyc : Nat
  deriving DecidableEq, Repr

/-- The updates of an event counter in the present reference cycle: its value before them, and each with the place that
R292 gives its party, in the order in which they apply. -/
structure EvCycle where
  ev : Nat
  base : Word
  ups : List (Nat × EvOp × Word)
  deriving DecidableEq, Repr

inductive QState where
  | disabled | running | blocked | stopped | error
  deriving DecidableEq, Repr

/-- What a blocked queue waits for (R290, R291). -/
inductive QBlock where
  | waitEvent (ev : Nat) (value : Word)
  | behindLaunch
  | serialLaunch (id : Nat)
  | serialCopy (id : Nat)
  deriving DecidableEq, Repr

/-- A return position of CALL: the VA to go on at and the end of that list; none is the ring (R291). -/
structure ListPos where
  va : Nat
  last : Nat
  deriving DecidableEq, Repr

/-- A submission queue (R289 to R291). -/
structure Queue where
  base : Nat
  size : Nat
  head : Nat
  tail : Nat
  vec : Nat
  irqen : Bool
  cls : Nat
  en : Bool
  state : QState
  errix : Nat
  code : Nat
  /-- The current list, innermost, and the positions to return to. -/
  list : Option ListPos
  stack : List (Option ListPos)
  block : Option QBlock
  deriving DecidableEq, Repr

def Queue.reset : Queue :=
  { base := 0, size := 0, head := 0, tail := 0, vec := 0, irqen := false, cls := 3, en := false, state := .disabled,
    errix := 0, code := 0, list := none, stack := [], block := none }

/-- A COPY entry in flight (R291). -/
structure QCopy where
  id : Nat
  queue : Nat
  evt : Nat
  len : Nat
  src : Nat
  dst : Nat
  ready : Nat
  deriving DecidableEq, Repr

/-! ## The module -/

/-- A live-map entry (R326). -/
structure SiteMap where
  retseq : Nat
  gret : BitVec 16
  sub : Vector Nat 16
  lrow : BitVec 16
  deriving DecidableEq, Repr

/-- A link band entry (R323). -/
structure Band where
  port : Nat
  via : Nat
  band : Nat
  lat : Nat
  deriving DecidableEq, Repr

/-- A fidelity record (R334). -/
structure FidRec where
  sup : Bool
  v0 : Nat
  v1 : Nat
  det0 : Nat
  und0 : Nat
  det1 : Nat
  und1 : Nat
  deriving DecidableEq, Repr

/-- An entry of the replay filter of a port (R266). -/
structure Applied where
  modid : Nat
  seq : Nat
  result : MeshWord
  deriving DecidableEq, Repr

/-- A wafer-link port (R265, R266, R389 to R392). -/
structure Port where
  resent : Nat
  crce : Nat
  peer : Nat
  owd : Nat
  cls : Nat
  up : Bool
  buffer : List MeshWord
  /-- How many of them have come in the present reference cycle (R265, R421). -/
  fresh : Nat
  /-- Tags of the streams that lost a word at a full buffer: the next read of each takes 0x0201 (R265). -/
  lost : List (BitVec 8)
  /-- Word flits sent and not acknowledged, oldest first, with their resend counts. -/
  window : List (BitVec 256 × Nat)
  waiting : List MeshWord
  sendSeq : Nat
  recvSeq : Nat
  atomSeq : Nat
  fullFor : Nat
  filter : List Applied
  /-- Flits that the port has put on the link, newest first. -/
  outbox : List (BitVec 256)
  deriving DecidableEq, Repr

def Port.reset : Port :=
  { resent := 0, crce := 0, peer := 0, owd := 0, cls := 3, up := false, buffer := [], fresh := 0, lost := [], window := [], waiting := [],
    sendSeq := 0, recvSeq := 0, atomSeq := 0, fullFor := 0, filter := [], outbox := [] }

/-- A retirement-log entry (R377). -/
structure RetEntry where
  kind : Nat
  site : Nat
  row : Nat
  col : Nat
  code : Nat
  wcy : Nat
  launch : Nat
  deriving DecidableEq, Repr

/-- The witness store: the launch it belongs to, the number of pieces, and nodes by level and index (R379). -/
structure Witness where
  launch : Option Nat
  np : Nat
  nodes : List (Nat × Nat × BitVec 384)
  deriving DecidableEq, Repr

/-- A witness log record (R380). -/
structure WitnessRec where
  launch : Nat
  poisoned : Bool
  phase : Nat
  root : BitVec 384
  deriving DecidableEq, Repr

/-- A firmware slot (R398): its image as written, none for the one it left the factory with. -/
structure FwSlot where
  present : Bool
  version : Nat
  index : Nat
  verified : Bool
  image : Option (List Byte)
  deriving DecidableEq, Repr

/-- Attestation block (R399). -/
structure Attest where
  nonce : List Byte
  /-- The nonce as latched by the request under way. -/
  latched : List Byte
  report : List Byte
  busy : Option Nat
  done : Bool
  count : Nat
  deriving DecidableEq, Repr

/-- An MSI-X table entry (R386). -/
structure MsixEntry where
  addr : Word
  data : BitVec 32
  masked : Bool
  pending : Bool
  deriving DecidableEq, Repr

/-- Outside delays of the model's own engines, in wall cycles (log entry 6). -/
structure Timing where
  land : Nat
  merge : Nat
  propagate : Nat
  load : Nat
  save : Nat
  retry : Nat
  dev : Nat
  copy : Nat
  attest : Nat
  deriving DecidableEq, Repr

/-- The module's registers and outside units (R385 to R399). -/
structure Module where
  feat : BitVec 7
  acc : BitVec 7
  evt : BitVec 8
  err : Bool
  ready : Bool
  gidx : Nat
  win2 : Nat
  /-- The size of BAR2 in GiB (R385). -/
  bar2Gib : Nat
  modid : Nat
  lock : Bool
  stepped : Bool
  offs : Int
  goodSyncs : Nat
  lastSync : Nat
  slew : Int
  lastSlew : Nat
  /-- WCY runs free since two seconds without a Sync (R394). -/
  freeRun : Bool
  launched : Bool
  caplvl : Nat
  inlvl : Nat
  cool : Nat
  flow : Nat
  inlet : Nat
  powered : Bool
  fw : Vector FwSlot 2
  fused : Nat
  booted : Option Nat
  /-- The Lantern firmware in flash: its bytes, none for those it left the factory with, and whether they verify (R397). -/
  lanternImage : Option (List Byte)
  lanternOk : Bool
  attest : Attest
  msix : Vector MsixEntry 64
  /-- MSI-X messages sent, newest first (vector numbers). -/
  sent : List Nat
  /-- What BAR2 and BAR0 reads answered, newest first: bytes, and whether the completion is poisoned. -/
  answers : List (List Byte × Bool × Bool)
  /-- Dead tiles found by self-test: site, physical row and column. -/
  dead : List (Nat × Nat × Nat)
  /-- The valid entries of the retirement log, and its copies A and B in flash, 64 bytes each; an erased copy is empty
  (R377, R378). -/
  retlog : List RetEntry
  flashA : List (List Byte)
  flashB : List (List Byte)
  witness : Witness
  wlog : List WitnessRec
  wtotal : Nat
  nextLaunch : Nat
  nextOrder : Nat
  nextCopy : Nat
  served : Vector Nat 5
  /-- Decisions of the scheduler still to be made (R296), and placements made so far. -/
  decisions : Nat
  placements : Nat
  /-- Leases in force, latest granted first: launch, level, expiry (R395). -/
  leases : List (Nat × Nat × Nat)
  deriving DecidableEq, Repr

/-- A fault raised at issue: its code, FADDR and slot. -/
structure Trap where
  code : Nat
  faddr : Word
  slot : Nat
  deriving DecidableEq, Repr

/-- What the outside world does: an event of the opcode table, or an access of the host that is none of them, a read
through BAR0 and the choice of BAR2's size, as a power of two in GiB (R385). -/
inductive Input where
  | event (e : Instr)
  | bar0Read (off n : Nat)
  | bar2Resize (k : Fin 10)
  deriving DecidableEq, Repr

/-- What is left to do in the present wall cycle, in the model's order (log entry 4); with nothing left the next cycle
begins. -/
inductive Task where
  | event (e : Instr)
  | host (x : Input)
  | issue (a : Agent)
  /-- The cycle of a region, or an extra one of a single cluster that its clock gained (R344). -/
  | advance (r : Nat) (only : Option Nat)
  | access (t : Nat)
  /-- Writes of tile t whose visibility has come are seen, before its copies land (R187, R189). -/
  | visible (t : Nat)
  /-- The window checks of a region (R340). -/
  | checks (r : Nat)
  | sync (r : Nat) (only : Option Nat)
  /-- Queue q's entry, if it updates an event counter; `reads` marks the later turn of every other entry (R292). -/
  | walker (q : Fin 20) (reads : Bool)
  deriving DecidableEq, Repr

/-- A synchronising slot that a tile issued in this wall cycle: tile, kind and schedule cycle (R246, R347, R356,
R371, R372). -/
inductive SyncKind where
  | publish | realign
  /-- PSWITCH: the switch point, the level read, and the variant entered, if the tile leaves its own. -/
  | pswitch (n level : Nat) (enter : Option Nat)
  | repb (n : Nat)
  | halt
  deriving DecidableEq, Repr

structure SyncReq where
  tile : Nat
  kind : SyncKind
  scy : Nat
  slot : Nat
  /-- What it does to its own cluster has been done. -/
  applied : Bool
  deriving DecidableEq, Repr

/-- The module. DESIGN CHOICE, log entry 1. -/
structure State where
  wcy : Nat
  tiles : List Tile
  regions : List Region
  launches : List Launch
  lanterns : Vector Lantern 4
  queues : Vector Queue 20
  events : Vector Word 1024
  evCycle : List EvCycle
  copies : List QCopy
  dram : Mem
  host : Mem
  due : List (Nat × Nat)
  dce : List (Nat × Nat)
  live : Vector SiteMap 80
  bands : Vector Band 1280
  fids : Vector FidRec 640
  lamps : Vector Lamp 80
  faults : Vector PlacedFault 80
  ports : Vector Port 32
  mod_ : Module
  /-- The model's own fields (log entries 4, 5, 6). -/
  focus : Agent
  slot : Nat
  /-- Whether the slot that issues stands in the second V or second C position (R194, R231). -/
  second : Bool
  agenda : List Task
  inputs : List (Nat × Input)
  syncs : List SyncReq
  trap : Option Trap
  imms : Option (List Word)
  timing : Timing
  deriving DecidableEq, Repr

/-! ## Reset -/

def Lantern.reset : Lantern :=
  { core := .reset, sram := .empty, halted := false, exc := false, run := false, lpc := 0, lvec := 0, lepc := 0,
    lcause := .none, root := 0, mmuOn := false, tlb := [], dev := [], devOrd := 0, waits := [], cyc := 0 }

/-- A site with every row and no substitution (log entry 7). -/
def SiteMap.full : SiteMap := ⟨0, 0, Vector.replicate 16 31, BitVec.allOnes 16⟩

/-- The gateway of a wafer-link port, and the port, if any, at a gateway (R324). -/
def portAt (n e g : Nat) : Option Nat :=
  let cy := n / 10
  let cx := if cy % 2 = 0 then n % 10 else 9 - n % 10
  if e = 2 && cy == 7 && 1 ≤ cx && cx ≤ 8 && (g == 1 || g == 2) then some (2 * (cx - 1) + (g - 1))
  else if e = 3 && cx == 0 && g == 1 then some (16 + cy)
  else if e = 1 && cx == 9 && g == 1 then some (24 + cy)
  else none

/-- The band entry that boot writes for a gateway when nothing is retired (R323). -/
def bandBoot (n e g : Nat) : Band :=
  let cy := n / 10
  let cx := if cy % 2 = 0 then n % 10 else 9 - n % 10
  let edge := (e == 0 && cy == 0) || (e == 1 && cx == 9) || (e == 2 && cy == 7) || (e == 3 && cx == 0)
  match portAt n e g with
  | some p => ⟨p, 0, 3, 0⟩
  | none => if edge then ⟨0, 0, 2, 0⟩ else ⟨0, 0, 0, 6⟩

def bandTable : Vector Band 1280 := (Vector.range 1280).map fun i => bandBoot (i / 16) (i / 4 % 4) (i % 4)

/-- Every level supported, every figure 0 (log entry 7). -/
def FidRec.boot : FidRec := ⟨true, 0, 0, 0, 0, 0, 0⟩

def Timing.reset : Timing := ⟨1, 1, 1, 1, 1, 1, 1, 1, 1⟩

/-- DESIGN CHOICE, log entry 7. -/
def Module.reset : Module :=
  { feat := 0, acc := 0, evt := 0, err := false, ready := false, gidx := 0, win2 := 0, bar2Gib := 1, modid := 0, lock := false,
    stepped := false, offs := 0, goodSyncs := 0, lastSync := 0, slew := 0, lastSlew := 0, freeRun := false, launched := false,
    caplvl := 7, inlvl := 7, cool := 7, flow := 40, inlet := 30, powered := true,
    fw := (Vector.replicate 2 ⟨false, 0, 0, false, none⟩).set 0 ⟨true, 1, 0, true, none⟩, fused := 0, booted := none,
    lanternImage := none, lanternOk := true,
    attest := ⟨List.replicate 48 0, [], [], none, false, 0⟩, msix := Vector.replicate 64 ⟨0, 0, true, false⟩,
    sent := [], answers := [], dead := [], retlog := [], flashA := [], flashB := [], witness := ⟨none, 0, []⟩, wlog := [], wtotal := 0,
    nextLaunch := 1, nextOrder := 0, nextCopy := 0, served := Vector.replicate 5 19, decisions := 0, placements := 0, leases := [] }

/-- The module right after reset: the boot of R397 is the first event. DESIGN CHOICE, log entry 3. -/
def State.reset : State :=
  { wcy := 0, tiles := [], regions := [], launches := [], lanterns := Vector.replicate 4 .reset,
    queues := Vector.replicate 20 .reset, events := Vector.replicate 1024 0, evCycle := [], copies := [], dram := .empty,
    host := .empty, due := [], dce := [], live := Vector.replicate 80 .full, bands := bandTable,
    fids := Vector.replicate 640 .boot, lamps := Vector.replicate 80 .zero,
    faults := Vector.replicate 80 ⟨.zero, 0⟩, ports := Vector.replicate 32 .reset,
    mod_ := .reset, focus := .lantern 0, slot := 0, second := false, agenda := [.event .powerOnBoot], inputs := [], syncs := [],
    trap := none, imms := none, timing := .reset }

end Sys2Proof.Machine
end

