-- ==== Sys2Proof/Machine/Ops.lean ====
section
/-! DEFINITION. The named operations over registers, clocks, scratchpad and the issuing agent, and taking a fault. -/

namespace Sys2Proof.Machine

/-! ## Registers -/

/-- Reads an S operand (R44, R92): s0 reads zero. -/
def Core.readS (c : Core) : SOp → SReg
  | .s n => if n = 0 then .zero else c.s.get n
  | .o n => c.o.get n
  | .l => c.l

/-- Reads a predicate (R92): q0 reads 1 and q1 reads 0. -/
def Core.readQ (c : Core) (n : Fin 16) : QReg :=
  if n = 0 then ⟨true, false, false⟩ else if n = 1 then .zero else c.q.get n

/-- Writes an S operand (R92): a write to s0 is discarded. -/
def Core.writeS (c : Core) (d : SOp) (v : SReg) : Core :=
  match d with
  | .s n => if n = 0 then c else { c with s := c.s.set n v }
  | .o n => { c with o := c.o.set n v }
  | .l => { c with l := v }

/-- The even and odd predicates of pair k (R94). -/
def evenOf (k : Fin 8) : Fin 16 := ⟨2 * k.val, by omega⟩
def oddOf (k : Fin 8) : Fin 16 := ⟨2 * k.val + 1, by omega⟩

/-- Writes a predicate pair: the condition and its complement (R94). -/
def Core.writePair (c : Core) (k : Fin 8) (v : QReg) : Core :=
  if k = 0 then c
  else { c with q := (c.q.set (evenOf k) v).set (oddOf k) { v with val := !v.val } }

/-- Queues a landing (R99). -/
def Core.land (c : Core) (due : Due) (eff : Effect) : Core :=
  { c with lands := c.lands ++ [⟨due, c.seq, eff⟩] }

/-- The latency to a destination: one figure for l and the o file, one for the s file (R99). -/
def latTo (latO latS : Nat) : SOp → Nat
  | .s _ => latS
  | _ => latO

/-- wr(d, v, n): lands v in d and, for an S result, in l (R93, R99); `ctl` is the issue cycle. -/
def Core.wr (c : Core) (ctl : Nat) (d : SOp) (v : SReg) (latO latS : Nat) (toL : Bool) : Core :=
  let c := c.land ⟨.ctl, ctl + latTo latO latS d⟩ (.reg d v)
  if toL then c.land ⟨.ctl, ctl + latO⟩ (.reg .l v) else c

/-- Notes when a result of an S slot, RDCYC or RDWALL lands, for R274. -/
def Core.busy (c : Core) (ctl : Nat) : Core := { c with sLast := max c.sLast ctl }

/-- mark(v) of several sources (R96, R98). -/
def marksOf (xs : List SReg) : Bool × Bool := (xs.any (·.taint), xs.any (·.poison))

/-- Whether an S operand lies in a register bank (R102). -/
def regBank : SOp → Option BankSel
  | .s n => if n.val < 16 then none else if n.val < 32 then some .bank1 else some .bank2
  | _ => none

/-! ## Handles and generators -/

/-- The places of the fields of a handle (R141, R143): low bit and width. -/
def fieldPlace (f : Fin 19) : Nat × Nat :=
  match f.val with
  | 0 => (0, 22)
  | 1 => (22, 6)
  | 2 => (28, 12)
  | 3 => (40, 12)
  | 4 => (52, 20)
  | 5 => (72, 4)
  | 6 => (76, 1)
  | 7 => (77, 2)
  | 8 => (79, 1)
  | 9 => (80, 22)
  | 10 => (102, 20)
  | 11 => (122, 4)
  | 12 => (128, 48)
  | 13 => (176, 22)
  | 14 => (198, 4)
  | 15 => (202, 4)
  | 16 => (206, 1)
  | 17 => (207, 4)
  | _ => (211, 1)

/-- A field of a handle as a number. -/
def hGet (h : BitVec 256) (f : Fin 19) : Nat := bitsOf h.toNat (fieldPlace f).1 (fieldPlace f).2

/-- A handle with one field replaced by the low bits of a value. -/
def hSet (h : BitVec 256) (f : Fin 19) (v : Nat) : BitVec 256 :=
  let (lo, w) := fieldPlace f
  let x := h.toNat
  BitVec.ofNat 256 (x / 2 ^ (lo + w) * 2 ^ (lo + w) + v % 2 ^ w * 2 ^ lo + x % 2 ^ lo)

def hBase (h : BitVec 256) : Nat := hGet h 0
def hFmt (h : BitVec 256) : Nat := hGet h 1
def hRows (h : BitVec 256) : Nat := hGet h 2
def hCols (h : BitVec 256) : Nat := hGet h 3
def hRstr (h : BitVec 256) : Nat := hGet h 4
def hPlanes (h : BitVec 256) : Nat := hGet h 5 + 1
def hSigned (h : BitVec 256) : Bool := hGet h 6 == 1
def hBwc (h : BitVec 256) : Nat := hGet h 7
def hTru (h : BitVec 256) : Bool := hGet h 8 == 1
def hSbase (h : BitVec 256) : Nat := hGet h 9
def hPstr (h : BitVec 256) : Nat := hGet h 10
def hOrnd (h : BitVec 256) : Nat := hGet h 11
def hBva (h : BitVec 256) : Nat := hGet h 12
def hDlist (h : BitVec 256) : Nat := hGet h 13
def hNdim (h : BitVec 256) : Nat := hGet h 14
def hWin (h : BitVec 256) : Fin 16 := Fin.ofNat 16 (hGet h 15)
def hPar (h : BitVec 256) : Fin 2 := Fin.ofNat 2 (hGet h 16)
def hPslot (h : BitVec 256) : Nat := hGet h 17
def hPen (h : BitVec 256) : Bool := hGet h 18 == 1

/-- Whether a reserved field of a handle is non-zero (R141). -/
def hReserved (h : BitVec 256) : Bool := bitsOf h.toNat 212 44 != 0 || bitsOf h.toNat 126 2 != 0

/-- The listed format codes (R67, R69, R80, R87). -/
def fmtListed (f : Nat) : Bool := f ≤ 7 || (0x10 ≤ f && f ≤ 0x15) || f == 0x20

/-- addr(g) (R139). -/
def Gen.addr (g : Gen) : Int :=
  (g.base.toNat : Int) + (g.ii.toNat : Int) * g.istr.toInt + (g.oi.toNat : Int) * g.ostr.toInt

/-- step(g) (R139). -/
def Gen.step (g : Gen) : Gen :=
  if g.ii.toNat < g.icnt.toNat then { g with ii := g.ii + 1 }
  else if g.oi.toNat < g.ocnt.toNat then { g with ii := 0, oi := g.oi + 1 }
  else { g with ii := 0, oi := 0 }

/-- n steps of a generator. -/
def Gen.steps (g : Gen) : Nat → Gen
  | 0 => g
  | n + 1 => (g.step).steps n

/-- The addresses of the next n uses. -/
def Gen.addrs (g : Gen) : Nat → List Int
  | 0 => []
  | n + 1 => g.addr :: (g.step).addrs n

/-- The P, C, S and POS words (R138). -/
def Gen.wordP (g : Gen) : Word := word (g.bw.toNat * 2 ^ 22 + g.base.toNat)
def Gen.wordC (g : Gen) : Word := word (g.ocnt.toNat * 4096 + g.icnt.toNat)
def Gen.wordS (g : Gen) : Word := word (g.ostr.toNat * 2 ^ 24 + g.istr.toNat)
def Gen.wordPos (g : Gen) : Word := word (g.oi.toNat * 4096 + g.ii.toNat)

/-! ## Landing -/

/-- Lands a result of a core (R92 to R95). -/
def Core.apply (c : Core) : Effect → Core
  | .reg d v => c.writeS d v
  | .pair k v => c.writePair k v
  | .breg n v => { c with b := c.b.set n v }
  | _ => c

/-- Writes the special registers that MTS can change (R74, R79, R103, R106). -/
def Tile.writeSpecial (t : Tile) (idx : BitVec 12) (v : Word) : Tile :=
  if idx = 0x020 then (if v.toNat % 2 = 1 then { t with bankclr := false } else t)
  else if idx = 0x021 then { t with fflags := v.truncate 6 }
  else if idx = 0x022 then { t with frm := v.truncate 2 }
  else t

def Tile.modGen (t : Tile) (n : Fin 16) (f : Gen → Gen) : Tile := { t with gens := t.gens.set n (f (t.gens.get n)) }

def Tile.bankOf (t : Tile) : BankSel → Bank
  | .bank1 => t.bank1
  | .bank2 => t.bank2

def Tile.setBank (t : Tile) (b : BankSel) (x : Bank) : Tile :=
  match b with
  | .bank1 => { t with bank1 := x }
  | .bank2 => { t with bank2 := x }

/-- A bank reaches a state; one that wakes from off is cleared with its marks, and BANKCLR is set (R102, R359).
DEDUCED, log entry 101. -/
def Tile.landBank (t : Tile) (b : BankSel) (st : BankState) : Tile :=
  let woke : Bool := (t.bankOf b).st == .off && st == .on
  let t1 := t.setBank b ⟨st, none⟩
  if woke then
    let clear (n : Fin 48) (x : SReg) : SReg := if regBank (.s n) = some b then .zero else x
    { t1 with bankclr := true, core := { t1.core with s := Vector.ofFn fun n => clear n (t1.core.s.get n) } }
  else t1

/-- Lands an effect on a tile. -/
def Tile.apply (t : Tile) : Effect → Tile
  | .reg d v => { t with core := t.core.apply (.reg d v) }
  | .pair k v => { t with core := t.core.apply (.pair k v) }
  | .breg n v => { t with core := t.core.apply (.breg n v) }
  | .agSet n p c => t.modGen n fun g =>
      { g with base := p.truncate 22, bw := (p >>> 22).truncate 2, icnt := c.truncate 12,
               ocnt := (c >>> 12).truncate 12, ii := 0, oi := 0 }
  | .agStr n s => t.modGen n fun g => { g with istr := s.truncate 24, ostr := (s >>> 24).truncate 24 }
  | .agBase n v => t.modGen n fun g => { g with base := v }
  | .agBw n v => t.modGen n fun g => { g with bw := v }
  | .agPos n ii oi => t.modGen n fun g => { g with ii := ii, oi := oi }
  | .handle n v p => { t with handles := t.handles.set n ⟨v, p⟩ }
  | .field n f v => { t with handles := t.handles.set n { t.handles.get n with bits := hSet (t.handles.get n).bits f v.toNat } }
  | .scale n v p => { t with scales := t.scales.set n ⟨v, p⟩ }
  | .ym n v => { t with ym := t.ym.set n v }
  | .xm n v => { t with xm := t.xm.set n v }
  | .vmask n v => if n = 0 then t else { t with vm := t.vm.set n v }
  | .special idx v => t.writeSpecial idx v
  | .flags f => { t with fflags := t.fflags ||| f }
  | .route e v => { t with routes := t.routes.set e v }
  | .act e v => { t with act := t.act.set e v }
  | .tags st et => { t with stag := st.getD t.stag, etag := et.getD t.etag }
  | .recBit v => { t with rec_ := { t.rec_ with recBit := v } }
  | .replayBit v => { t with rep := { t.rep with bit := v } }
  | .bank b st => t.landBank b st

/-- Inserts a landing by issue order (R40). -/
def insertLanding (x : Landing) : List Landing → List Landing
  | [] => [x]
  | y :: ys => if x.seq < y.seq then x :: y :: ys else y :: insertLanding x ys

def sortLandings : List Landing → List Landing
  | [] => []
  | x :: xs => insertLanding x (sortLandings xs)

def Effect.isFlags : Effect → Bool
  | .flags _ => true
  | _ => false

/-- Whether a landing of a whole handle gives way to a later-issued field write of the same cycle (R153). -/
def handleLoses (x : Landing) (later : List Landing) : Bool :=
  match x.eff with
  | .handle n _ _ => later.any fun y =>
      match y.eff with
      | .field k _ _ => k == n && x.seq < y.seq
      | _ => false
  | _ => false

/-- The landings of one cycle in the order they take effect: by issue, flags last (R40, R79). -/
def landingOrder (xs : List Landing) : List Landing :=
  let xs := sortLandings (xs.reverse)
  let xs := xs.filter fun x => !handleLoses x xs
  xs.filter (fun x => !x.eff.isFlags) ++ xs.filter (fun x => x.eff.isFlags)

/-! ## Clocks -/

/-- The cycle counts that an agent sees: the number of the running control, matrix and vector cycle, SCY and WCY. -/
structure Env where
  ctl : Nat
  mat : Nat
  vec : Nat
  scy : Nat
  wcy : Nat
  /-- Control divisor in force. -/
  dc : Nat
  dm : Nat
  deriving DecidableEq, Repr

/-- Whether the start of a cycle has come. -/
def Env.reached (e : Env) (d : Due) : Bool :=
  match d.dom with
  | .ref => d.at_ ≤ e.scy
  | .ctl => d.at_ ≤ e.ctl
  | .mat => d.at_ ≤ e.mat
  | .vec => d.at_ ≤ e.vec
  | .cpy => d.at_ ≤ e.scy

/-- A region by the serpentine index of its north-west site (R9, R338). -/
def serp (cx cy : Nat) : Nat := cy * 10 + (if cy % 2 = 0 then cx else 9 - cx)

def siteX (n : Nat) : Nat := if n / 10 % 2 = 0 then n % 10 else 9 - n % 10
def siteY (n : Nat) : Nat := n / 10

def Region.id (r : Region) : Nat := serp r.nwx r.nwy

def State.region? (s : State) (id : Nat) : Option Region := s.regions.find? fun r => r.id == id

def State.modRegion (s : State) (id : Nat) (f : Region → Region) : State :=
  { s with regions := s.regions.map fun r => if r.id = id then f r else r }

def Divs.one : Divs := ⟨1, 1, 1, 1⟩

def Clock.reset : Clock :=
  { div := .one, org := 0, ctl := 0, mat := 0, vec := 0, cpy := 0, liveB := false, pend := none, target := none,
    progAt := 0, handover := none }

def Cluster.none : Cluster :=
  { site := 0, ox := 0, oy := 0, scy := 0, hold := 0, held := 0, clk := .reset, fid := 0, grant := 0, variant := 0, grants := [], slip := 0 }

/-- The cluster of a tile. -/
def State.cluster (s : State) (t : Tile) : Cluster :=
  match s.region? t.region with
  | some r => r.clusters.getD t.cluster .none
  | none => .none

def Cluster.env (c : Cluster) (wcy : Nat) : Env :=
  { ctl := c.clk.ctl, mat := c.clk.mat, vec := c.clk.vec, scy := c.scy, wcy := wcy, dc := c.clk.div.ctl,
    dm := c.clk.div.mat }

def State.tileEnv (s : State) (t : Tile) : Env := (s.cluster t).env s.wcy

def Lantern.env (l : Lantern) (wcy : Nat) : Env :=
  { ctl := l.cyc, mat := 0, vec := 0, scy := 0, wcy := wcy, dc := 1, dm := 1 }

/-! ## The issuing agent -/

def State.tile? (s : State) (i : Nat) : Option Tile := s.tiles[i]?

def State.setTile (s : State) (i : Nat) (t : Tile) : State := { s with tiles := s.tiles.set i t }

def State.modTile (s : State) (i : Nat) (f : Tile → Tile) : State := { s with tiles := s.tiles.modify i f }

def State.modLantern (s : State) (n : Fin 4) (f : Lantern → Lantern) : State :=
  { s with lanterns := s.lanterns.set n (f (s.lanterns.get n)) }

/-- The core of an agent, if it exists. -/
def State.coreOf (s : State) : Agent → Option Core
  | .tile i => (s.tile? i).map (·.core)
  | .lantern n => some (s.lanterns.get n).core

def State.envOf (s : State) : Agent → Env
  | .tile i =>
    match s.tile? i with
    | some t => s.tileEnv t
    | none => Cluster.none.env s.wcy
  | .lantern n => (s.lanterns.get n).env s.wcy

/-- Changes the core of a tile or of a Lantern. -/
def Tile.onCore (f : Core → Core) (t : Tile) : Tile := { t with core := f t.core }
def Lantern.onCore (f : Core → Core) (l : Lantern) : Lantern := { l with core := f l.core }

/-- Changes the core of an agent. -/
def State.modCoreOf (s : State) (a : Agent) (f : Core → Core) : State :=
  match a with
  | .tile i => s.modTile i (Tile.onCore f)
  | .lantern n => s.modLantern n (Lantern.onCore f)

/-- Changes the core of the issuing agent. -/
def State.modCore (s : State) (f : Core → Core) : State := s.modCoreOf s.focus f

/-- Changes the issuing tile; a Lantern is left alone. -/
def State.modFocus (s : State) (f : Tile → Tile) : State :=
  match s.focus with
  | .tile i => s.modTile i f
  | .lantern _ => s

/-- The issuing tile. -/
def State.focusTile? (s : State) : Option Tile :=
  match s.focus with
  | .tile i => s.tile? i
  | .lantern _ => none

def State.env (s : State) : Env := s.envOf s.focus

def agentKind : Agent → CoreKind
  | .tile _ => .tile
  | .lantern _ => .lantern

/-! ## Taking a fault -/

/-- The vector of the Lantern error interrupt is sent (R386). -/
def State.sendVector (s : State) (v : Nat) : State :=
  if h : v < 64 then
    let e := s.mod_.msix.get ⟨v, h⟩
    if e.masked then { s with mod_ := { s.mod_ with msix := s.mod_.msix.set v { e with pending := true } } }
    else { s with mod_ := { s.mod_ with sent := v :: s.mod_.sent } }
  else s

/-- A halt request of a region at the present wall cycle: it takes effect one tree latency later, and an earlier
one stands (R28). -/
def State.requestHalt (s : State) (region : Nat) : State :=
  s.modRegion region fun r =>
    match r.haltReq with
    | some h => { r with haltReq := some ⟨min h.at_ (s.wcy + Config.treeLatency)⟩ }
    | none => { r with haltReq := some ⟨s.wcy + Config.treeLatency⟩ }

/-- A precise fault of a tile (R28, R107, R361): CAUSE, FADDR and FCYC take it unless they hold an earlier one, the
tile stops issuing, and the region's halt is requested. -/
def State.faultTile (s : State) (i : Nat) (code : Nat) (faddr : Word) (slot fcyc : Nat) : State :=
  let rec_ : FaultRec := ⟨true, slot, code, faddr, fcyc, none⟩
  let region := match s.tile? i with
    | some t => t.region
    | none => 0
  (s.modTile i fun t =>
    { t with cause := if t.cause.valid then t.cause else rec_, halt := if t.halt.valid then t.halt else rec_,
             run := .stopped }).requestHalt region

/-- A deferred fault of a tile: recorded without stopping it, and the region's poison flag set (R361, R363). -/
def State.deferFaultAt (s : State) (i : Nat) (code : Nat) (faddr : Word) (slot fcyc : Nat) (loc : Option Loc) : State :=
  let rec_ : FaultRec := ⟨true, slot, code, faddr, fcyc, loc⟩
  let region := match s.tile? i with
    | some t => t.region
    | none => 0
  (s.modTile i fun t =>
    { t with cause := if t.cause.valid then t.cause else rec_,
             deferred := if t.deferred.valid then t.deferred else rec_ }).modRegion
    region fun r => { r with poison := true }

/-- A deferred fault whose unit is the tile itself. -/
def State.deferFault (s : State) (i : Nat) (code : Nat) (faddr : Word) (slot fcyc : Nat) : State :=
  s.deferFaultAt i code faddr slot fcyc none

/-- An exception of a Lantern (R287): the record is taken and the next bundle comes from LVEC; in exception mode the
core stops and raises vector 63. DEDUCED, log entry 13. -/
def State.faultLantern (s : State) (n : Fin 4) (code : Nat) (faddr : Word) (slot : Nat) : State :=
  let l := s.lanterns.get n
  let rec_ : FaultRec := ⟨true, slot, code, faddr, 0, none⟩
  let l1 : Lantern :=
    { l with lepc := BitVec.ofNat 32 l.core.pc, lcause := rec_, waits := [],
             core := { l.core with pc := l.lvec.toNat, xfer := none, target := false, ctl := none } }
  if l.exc then
    { s with lanterns := s.lanterns.set n { l1 with halted := true, run := false } }.sendVector 63
  else { s with lanterns := s.lanterns.set n { l1 with exc := true } }

/-- Takes a fault raised at issue by the focused core: a precise halt on a tile, an exception on a Lantern (R360),
and notes it for the bundle. DEDUCED, log entry 17. -/
def State.takeFault (s : State) (f : Trap) : State :=
  let s := match s.focus with
    | .tile i => s.faultTile i f.code f.faddr f.slot s.env.scy
    | .lantern n => s.faultLantern n f.code f.faddr f.slot
  { s with trap := some f }

/-- A state with the corrections and losses of memory words that another has counted (R349). -/
def State.counted (s u : State) : State := { s with dce := u.dce, due := u.due }

/-- The return from an exception (R306): the target is LEPC, after one delay bundle. -/
def Lantern.returnFrom (l : Lantern) : Lantern :=
  { l with core := { l.core with ctl := some (.xfer ⟨.eret, l.lepc.toNat, 1, l.core.cdepth⟩) } }

/-! ## Scratchpad words with their check bits -/

/-- Counts corrected scratchpad words: COUNT rises by their number and LASTW takes the highest of the reference cycle
(R348). -/
def Tile.countSp (t : Tile) (ws : List Nat) : Tile :=
  if ws.isEmpty then t
  else { t with spceCount := min (t.spceCount + ws.length) 0xFFFF_FFFF, spceNow := true,
                spceLast := ws.foldl max (if t.spceNow then t.spceLast else 0) }

/-- Counts corrected code-store or Taper words; SRC is the source of the word that LASTW names (R348). -/
def Tile.countCs (t : Tile) (fromTape : Bool) (ws : List Nat) : Tile :=
  if ws.isEmpty then t
  else
    let top := ws.foldl max 0
    let older : Bool := t.csceNow && top < t.csceLast
    { t with csceCount := min (t.csceCount + ws.length) 0xFFFF_FFFF, csceNow := true,
             csceLast := if older then t.csceLast else top, csceTape := if older then t.csceTape else fromTape }

/-- The check bits of scratchpad words that are read: corrections counted and an uncorrectable word deferred as 0x0306
with its address (R190, R363). DEDUCED, log entry 12. -/
def State.checkWords (s : State) (i : Nat) (ws : List Nat) (slot fcyc : Nat) : State :=
  match s.tile? i with
  | none => s
  | some t =>
    let s := s.modTile i fun t => t.countSp (ws.filter fun w => (t.sp.mark w).err == .correctable)
    match ws.filter fun w => (t.sp.mark w).err == .uncorrectable with
    | [] => s
    | w :: _ => s.deferFault i 0x0306 (word (8 * w)) slot fcyc

/-- A read of scratchpad bytes by tile i: the bytes and their poison (R190). -/
def State.spRead (s : State) (i a n slot fcyc : Nat) : State × List Byte × Bool :=
  match s.tile? i with
  | none => (s, List.replicate n 0, false)
  | some t => (s.checkWords i (wordsOf a n) slot fcyc, t.sp.bytes a n, t.sp.poisoned a n)

/-- Where the poison of a byte comes from: its word. -/
def Mem.bytePoison (m : Mem) (a : Nat) : Bool := m.wordPoisoned (a / 8)

/-- The lines that n bytes at address a touch, as 64-aligned addresses (R184). -/
def linesOf (a n : Nat) : List Nat :=
  if n = 0 then [] else (wordsFrom (a / 64) ((a + n - 1) / 64 + 1 - a / 64)).map (64 * ·)

/-- The bank of an address (R184). -/
def bankOf (a : Nat) : Nat := a / 64 % 16

/-- Address checks of R131 in order: range, alignment. -/
def addrCheck (slot : Nat) (a : Int) (size align : Nat) : Option Trap :=
  let f : Word := BitVec.ofInt 64 a
  if a < 0 || (Config.spSize : Int) ≤ a + size - 1 then some ⟨0x0301, f, slot⟩
  else if a % align != 0 then some ⟨0x0302, f, slot⟩
  else none

/-! ## Words in eight bytes -/

/-- The pending writes that carry a list of bytes at an address, one for each word with a byte to write; each line is an
access of its own. -/
def lineWords (due : Due) (seq slot : Nat) (mport : Bool) (w : LineWrite) : List PWrite :=
  ((wordsOf w.addr w.bytes.length).filter fun k => (List.range 8).any fun j =>
      w.addr ≤ 8 * k + j && (w.bytes.getD (8 * k + j - w.addr) none).isSome).map fun k =>
    let cell (j : Nat) : Option Byte × Bool :=
      let a := 8 * k + j
      if a < w.addr then (none, false)
      else (w.bytes.getD (a - w.addr) none, w.poison.getD (a - w.addr) false)
    let js := List.range 8
    { due := due, seq := seq, slot := slot, mport := mport, addr := max w.addr (8 * k / 64 * 64), word := k,
      mask := BitVec.ofNat 8 (js.foldl (fun acc j => if (cell j).1.isSome then acc + 2 ^ j else acc) 0),
      data := word (js.foldl (fun acc j => acc + ((cell j).1.getD 0).toNat * 256 ^ j) 0),
      poison := js.any fun j => (cell j).1.isSome && (cell j).2 }

/-- A line write of plain bytes that share one poison. -/
def LineWrite.plain (a : Nat) (bs : List Byte) (poison : Bool) : LineWrite :=
  ⟨a, bs.map some, bs.map fun _ => poison⟩

/-- The bytes that a pending write replaces, over the stored word (R191). -/
def PWrite.merge (w : PWrite) (m : Mem) : Mem :=
  let m1 := (List.range 8).foldl (fun x j =>
    if w.mask.getLsbD j then x.setByte (8 * w.word + j) (BitVec.ofNat 8 (w.data.toNat / 256 ^ j)) else x) m
  m1.setMark w.word (mergeMark (m.mark w.word) (w.mask == BitVec.allOnes 8) w.poison)

end Sys2Proof.Machine
end

