-- ==== Sys2Proof/Machine/CtlSpace.lean ====
section
/-! DEFINITION. Control space (R284, R385): every register by its offset, what reads deliver and what writes change
(R286, R289, R292, R323, R326, R334, R338, R345, R349, R362, R377, R380, R387, R392, R393, R395, R399). -/

namespace Sys2Proof.Machine

/-! ## Power levels and module events -/

/-- Module power at a grant level, kW (R354). -/
def powerKw : Nat → Nat
  | 0 => 12
  | 1 => 14
  | 2 => 16
  | 3 => 18
  | 4 => 21
  | 5 => 24
  | 6 => 27
  | _ => 30

/-- SUS (R395). -/
def Module.sus (m : Module) : Nat := min m.caplvl (min m.cool m.inlvl)

/-- CEIL (R395). -/
def Module.ceil (m : Module) : Nat := if m.cool = 0 then m.sus else min m.caplvl m.inlvl

/-- Sets bits of MODCTL.EVT; one that becomes 1 raises vector 62 (R386, R387). -/
def State.raiseEvt (s : State) (bit : Nat) : State :=
  if s.mod_.evt.getLsbD bit then s
  else { s with mod_ := { s.mod_ with evt := s.mod_.evt ||| BitVec.ofNat 8 (2 ^ bit) } }.sendVector 62

/-- The level a region draws under a lease, if it holds one above the sustained level. -/
def Region.leased (r : Region) (sus : Nat) : Option Nat := r.leaseLevel.filter (sus < ·)

/-- The level that a region has, or will have once the changes under way are in force. -/
def Region.sentLevel (r : Region) : Nat :=
  match r.clusters with
  | k :: _ => (k.grants.getLast?.map (·.2)).getD k.grant
  | [] => 0

/-- The level at which a region counts against the pool (R354): that of its lease, SUS once its lease has ended, else its
level in force. -/
def Region.drawLevel (r : Region) (sus : Nat) : Nat :=
  match r.leaseLevel with
  | some lv => lv
  | none => if r.expiry.isSome then sus else r.sentLevel

/-- Draw of the placed regions, in cluster kilowatts (R354). -/
def State.leaseDraw (s : State) : Nat :=
  (s.regions.map fun r => r.cw * r.ch * powerKw (r.drawLevel s.mod_.sus)).sum

/-- Ends the lease of one launch now: EXPIRY := WCY (R395); the level drops to SUS at the expiry (R355). -/
def State.endLease (s : State) (launch : Nat) : State :=
  { s with
    regions := s.regions.map fun r => if r.launch = launch then { r with leaseLevel := none, expiry := some s.wcy } else r,
    mod_ := { s.mod_ with leases := s.mod_.leases.filter fun x => x.1 ≠ launch } }

/-- The latest granted lease that breaks the ceiling (R395): above CEIL, or any while the pool is over its bound. -/
def State.brokenLease (s : State) : Option Nat :=
  let tooMuch : Bool := decide (80 * powerKw s.mod_.ceil < s.leaseDraw)
  (s.mod_.leases.find? fun x => s.mod_.ceil < x.2.1 || tooMuch).map (·.1)

/-- Ends the leases that break the ceiling, latest granted first; `leases` holds the latest first. -/
def endLeases : (fuel : Nat) → State → State
  | 0, s => s
  | fuel + 1, s =>
    match s.brokenLease with
    | some l => endLeases fuel (s.endLease l)
    | none => s

/-- A change of the power inputs: the new module, the event of a lowered cap, and leases that break the ceiling
(R395). -/
def State.setPower (s : State) (m : Module) : State :=
  let lowered := m.ceil < s.mod_.ceil || m.sus < s.mod_.sus
  let s1 := { s with mod_ := m }
  let s2 := if lowered then s1.raiseEvt 1 else s1
  endLeases (s2.mod_.leases.length + 1) s2

/-! ## Words of registers -/

def boolNat (b : Bool) (n : Nat) : Nat := if b then n else 0

/-- CAUSE and LCAUSE (R107, R286). -/
def FaultRec.word (f : FaultRec) : Word :=
  Sys2Proof.word (boolNat f.valid (2 ^ 19) + f.slot % 8 * 2 ^ 16 + f.code % 2 ^ 16)

def Lantern.reg (l : Lantern) (o : Nat) : Word :=
  match o with
  | 0x00 => word (boolNat l.halted 4 + boolNat l.exc 2 + boolNat l.run 1)
  | 0x08 => l.lpc.zeroExtend 64
  | 0x10 => l.lvec.zeroExtend 64
  | 0x18 => l.lepc.zeroExtend 64
  | 0x20 => l.lcause.word
  | 0x28 => l.lcause.faddr
  | 0x30 => word (l.root % 2 ^ 28 * 4096 + boolNat l.mmuOn 1)
  | _ => 0

def QState.code : QState → Nat
  | .disabled => 0
  | .running => 1
  | .blocked => 2
  | .stopped => 3
  | .error => 4

/-- Call-stack depth (R289). -/
def Queue.csd (q : Queue) : Nat := if q.list.isSome then q.stack.length else 0

def Queue.reg (q : Queue) (internal : Bool) (o : Nat) : Word :=
  match o with
  | 0x00 => if internal then 0 else word q.base
  | 0x08 => if internal then 0 else word q.size
  | 0x10 => if internal then 0 else word q.head
  | 0x18 => if internal then 0 else word q.tail
  | 0x20 => word (q.vec % 64 * 256 + boolNat q.irqen 128 + q.cls % 4 * 32 + boolNat q.en 1)
  | 0x28 => word (q.csd % 16 * 2 ^ 52 + q.state.code * 2 ^ 48 + q.errix % 2 ^ 32 * 2 ^ 16 + q.code % 2 ^ 16)
  | 0x30 => match q.list with
    | some p => word (p.va % 2 ^ 48)
    | none => 0
  | _ => 0

/-- A live-map entry as its 32 bytes (R326). -/
def SiteMap.bytes (m : SiteMap) : List Byte :=
  let rows := popCount 16 m.lrow.toNat
  let sub := (List.range 16).foldl (fun acc y => acc + (m.sub.toList.getD y 31) % 32 * 2 ^ (5 * y)) 0
  leBytes 2 m.lrow.toNat ++ leBytes 10 sub ++ leBytes 2 m.gret.toNat ++ leBytes 2 (16 * rows) ++ leBytes 8 m.retseq ++
    leBytes 8 0

def Band.bits (b : Band) : Nat := b.port % 32 * 2 ^ 16 + b.via % 4 * 2 ^ 12 + b.band % 4 * 2 ^ 10 + b.lat % 256

def FidRec.bytes (f : FidRec) : List Byte :=
  leBytes 1 (boolNat f.sup 1) ++ leBytes 1 f.v0 ++ leBytes 1 f.v1 ++ leBytes 1 0 ++ leBytes 2 f.det0 ++
    leBytes 2 f.und0 ++ leBytes 2 f.det1 ++ leBytes 2 f.und1 ++ leBytes 4 0

def Lamp.word (l : Lamp) : Word :=
  Sys2Proof.word (boolNat l.over_ (2 ^ 48) + l.nsamp % 2 ^ 32 * 2 ^ 16 + l.edgemax % 256 * 256 + l.drift % 256)

/-- The region record (R338). -/
def Region.reg (r : Region) (o : Nat) : Word :=
  match o with
  | 0x00 => word r.frozen
  | 0x08 => word r.nfrz
  | 0x10 => word r.wreq
  | 0x18 => word r.preq
  | 0x20 => BitVec.ofInt 64 r.ebal
  | 0x28 => word r.echg
  | 0x30 => word (match r.clusters with
    | c :: _ => c.grant % 8
    | [] => 0)
  | 0x38 => match r.expiry with
    | some w => word w
    | none => BitVec.allOnes 64
  | _ => 0

/-- The region fault record (R362). -/
def PlacedFault.reg (r : PlacedFault) (o : Nat) : Word :=
  let f := r.fault
  match o with
  | 0x00 => word (f.tries % 256 * 2 ^ 16 + f.code % 2 ^ 16)
  | 0x08 => word (f.ltype % 256 * 2 ^ 24 + f.lcol % 256 * 2 ^ 16 + f.lrow % 256 * 256 + f.lsite % 256)
  | 0x10 => f.addr
  | 0x18 => word f.fcyc
  | 0x20 => word r.bound
  | 0x28 => word f.trans
  | 0x30 => word f.glt
  | _ => 0

def Port.status (p : Port) : Word :=
  word (min p.resent 0xFFFF * 2 ^ 48 + min p.crce 0xFFFF * 2 ^ 32 + p.peer % 256 * 2 ^ 24 + p.owd % 4096 * 2 ^ 12 +
    p.cls % 4 * 256 + boolNat p.up 1)

def Module.reg (m : Module) (o : Nat) : Word :=
  match o with
  | 0x00 => m.feat.zeroExtend 64
  | 0x08 => m.acc.zeroExtend 64
  | 0x10 => word (m.evt.toNat * 2 ^ 16 + boolNat m.err 4 + boolNat m.ready 2)
  | 0x18 => word (m.gidx % 256 * 2 ^ 16 + m.win2 % 256 * 256 + m.modid % 256)
  | 0x20 => word (m.ceil * 2 ^ 19 + m.inlvl * 2 ^ 16 + m.cool * 256 + m.sus * 16 + m.caplvl)
  | 0x28 => word (boolNat m.lock (2 ^ 63) + boolNat m.stepped (2 ^ 62) + toRaw 32 m.offs)
  | 0x70 => word (boolNat m.attest.done 2 + boolNat m.attest.busy.isSome 4)
  | _ => if 0x40 ≤ o && o < 0x70 then word (leNat ((m.attest.nonce.drop (o - 0x40)).take 8)) else 0

def WitnessRec.bytes (w : WitnessRec) : List Byte :=
  leBytes 8 (w.launch % 2 ^ 48 + boolNat w.poisoned (2 ^ 63)) ++ leBytes 8 w.phase ++ (leBytes 48 w.root.toNat).reverse

/-- One bit of the CRC-32C register (the reflected polynomial 0x82F6_3B78). -/
def crcBit (c : Nat) : Nat := if c % 2 = 1 then Nat.xor (c / 2) 0x82F63B78 else c / 2

def crcByte (c : Nat) (b : Byte) : Nat :=
  crcBit (crcBit (crcBit (crcBit (crcBit (crcBit (crcBit (crcBit (Nat.xor c b.toNat))))))))

/-- CRC-32C of a list of bytes (R62, R269, R377, R389). -/
def crc32c (bs : List Byte) : Nat := Nat.xor (bs.foldl crcByte 0xFFFF_FFFF) 0xFFFF_FFFF

/-- The copies of a retirement-log entry: 60 bytes and their CRC (R377). -/
def RetEntry.bytes (e : RetEntry) (seq : Nat) : List Byte :=
  let b := leBytes 4 seq ++ leBytes 1 e.kind ++ leBytes 1 e.site ++ leBytes 1 e.row ++ leBytes 1 e.col ++
    leBytes 2 e.code ++ leBytes 6 0 ++ leBytes 8 e.wcy ++ leBytes 8 e.launch ++ leBytes 28 0
  b ++ leBytes 4 (crc32c b)

/-- The entry that copy k of the log holds, if the copy is valid: its CRC passes and its SEQ is k + 1 (R378). -/
def retEntryOf (k : Nat) (bs : List Byte) : Option RetEntry :=
  let f (o n : Nat) : Nat := leNat ((bs.drop o).take n)
  if bs.length = 64 ∧ crc32c (bs.take 60) = f 60 4 ∧ f 0 4 = k + 1 then
    some ⟨f 4 1, f 5 1, f 6 1, f 7 1, f 8 2, f 16 8, f 24 8⟩
  else none

/-- The entries that boot keeps, from entry k on: as long as copy A is valid (R378). -/
def readRetlog : (k : Nat) → (a : List (List Byte)) → List RetEntry
  | _, [] => []
  | k, x :: xs =>
    match retEntryOf k x with
    | some e => if k < 4096 then e :: readRetlog (k + 1) xs else []
    | none => []

/-- Sets entry k of a sector, erased copies before it. -/
def putCopy (k : Nat) (x : List Byte) (xs : List (List Byte)) : List (List Byte) :=
  xs.take k ++ List.replicate (k - xs.length) [] ++ x :: xs.drop (k + 1)

/-- The log as boot reads it: the kept entries, each copy B of them equal to its copy A (R378). -/
def Module.bootLog (m : Module) : Module :=
  let es := readRetlog 0 m.flashA
  { m with retlog := es, flashB := m.flashA.take es.length ++ m.flashB.drop es.length }

/-- The eight bytes at an offset of a list, as a word. -/
def wordAtOffset (bs : List Byte) (o : Nat) : Word := word (leNat ((bs.drop o).take 8))

/-- The newest record of ring slot k of the witness log (R380). -/
def Module.wlogAt (m : Module) (k : Nat) : Option WitnessRec :=
  let n := m.wlog.length
  if k < m.wtotal ∨ 4096 ≤ m.wtotal then
    let back := (m.wtotal + 4096 - 1 - k) % 4096
    if back < n then m.wlog[back]? else none
  else none

/-! ## Reads -/

/-- What a read of 8 bytes of control space at an aligned offset delivers. -/
def State.readCtl (s : State) (off : Nat) : Word :=
  let page := off / 0x10000
  let lo := off % 0x10000
  if off < 0x400 then (s.lanterns.toList.getD (lo / 0x100) .reset).reg (lo % 0x100)
  else if page = 1 ∧ lo < 0x40 * 20 then (s.queues.toList.getD (lo / 0x40) .reset).reg (16 ≤ lo / 0x40) (lo % 0x40)
  else if page = 2 ∧ lo < 8 * 1024 then s.events.toList.getD (lo / 8) 0
  else if page = 3 ∧ lo < 32 * 80 then wordAtOffset (s.live.toList.getD (lo / 32) .full).bytes (lo % 32)
  else if page = 4 ∧ lo < 4 * 1280 then
    word ((s.bands.toList.getD (lo / 4) ⟨0, 0, 0, 0⟩).bits + (s.bands.toList.getD (lo / 4 + 1) ⟨0, 0, 0, 0⟩).bits * 2 ^ 32)
  else if page = 5 ∧ lo < 128 * 80 then wordAtOffset (s.fids.toList.getD (lo / 16) .boot).bytes (lo % 16)
  else if page = 6 ∧ lo < 8 * 80 then (s.lamps.toList.getD (lo / 8) .zero).word
  else if page = 7 ∧ lo < 64 * 80 then
    match s.region? (lo / 64) with
    | some r => r.reg (lo % 64)
    | none => 0
  else if page = 8 ∧ lo < 8 * 80 then
    word (lookupKey 0 s.due (lo / 8) * 2 ^ 32 + lookupKey 0 s.dce (lo / 8))
  else if page = 9 ∧ lo < 64 * 80 then
    match s.region? (lo / 64) with
    | some r => (PlacedFault.mk r.fault r.boundary.num).reg (lo % 64)
    | none => (s.faults.toList.getD (lo / 64) ⟨.zero, 0⟩).reg (lo % 64)
  else if off = 0x0A0000 then word (s.mod_.wtotal % 2 ^ 32 * 2 ^ 32 + s.mod_.wtotal % 4096)
  else if page = 0x0B ∧ lo < 64 * 32 then
    if lo % 64 = 0 then (s.ports.toList.getD (lo / 64) .reset).status else 0
  else if page = 0x0E then
    if lo < 0x1000 then s.mod_.reg lo
    else if lo < 0x2000 then wordAtOffset s.mod_.attest.report (lo - 0x1000)
    else word (leNat ((List.range 8).map fun j => Config.certificateByte (lo - 0x2000 + j)))
  else if 0x10 ≤ page ∧ page < 0x14 then
    match s.mod_.wlogAt ((off - 0x100000) / 64) with
    | some w => wordAtOffset w.bytes (off % 64)
    | none => 0
  else if 0x14 ≤ page ∧ page < 0x18 then
    let k := (off - 0x140000) / 64
    match s.mod_.retlog[k]? with
    | some e => wordAtOffset (e.bytes (k + 1)) (off % 64)
    | none => 0
  else 0

/-! ## Writes -/

def State.modQueue (s : State) (q : Fin 20) (f : Queue → Queue) : State :=
  { s with queues := s.queues.set q (f (s.queues.get q)) }

/-- A queue enters STOPPED or ERROR: with IRQEN it raises its vector (R289). -/
def State.queueStop (s : State) (q : Fin 20) (st : QState) (code : Nat) : State :=
  let x := s.queues.get q
  let s1 := s.modQueue q fun x =>
    { x with state := st, code := code, errix := if st = .error then x.head else x.errix, block := none }
  if x.irqen then s1.sendVector x.vec else s1

/-- Ring entries (R289). -/
def Queue.ring (q : Queue) : Nat := q.size / 32

/-- Whether SIZE passes the ring check (R289). -/
def Queue.ringOk (q : Queue) : Bool := q.size % 32 == 0 && 64 ≤ q.size && q.size ≤ 2 ^ 20

/-- Moves the position past a finished entry (R290). -/
def Queue.advance (q : Queue) : Queue :=
  match q.list with
  | some p => { q with list := some { p with va := p.va + 32 } }
  | none => { q with head := if q.ring = 0 then 0 else (q.head + 1) % q.ring }

/-- A write of EN := 1 (R289, R387); an internal queue ignores it, and before READY it leaves the queue DISABLED whatever it
was. DEDUCED, log entry 91. -/
def State.enableQueue (s : State) (q : Fin 20) : State :=
  let x := s.queues.get q
  if 16 ≤ q.val then s
  else if !s.mod_.ready then s.modQueue q fun x => { x with en := true, state := .disabled, code := 0x0801, block := none }
  else if x.state ≠ .disabled then s.modQueue q fun x => { x with en := true }
  else if x.ringOk then s.modQueue q fun x => { x with en := true, state := .running, code := 0 }
  else s.modQueue q fun x => { x with en := true, code := 0x0801 }

/-- EN := 0 (R289): a blocked WAIT or a launch not yet submitted stays, a serial entry is finished. -/
def Queue.disable (x : Queue) : Queue :=
  let y := match x.block with
    | some (.serialLaunch _) => x.advance
    | some (.serialCopy _) => x.advance
    | _ => x
  { y with en := false, state := .disabled, block := none }

/-- A write of EN := 0. -/
def State.disableQueue (s : State) (q : Fin 20) : State := s.modQueue q Queue.disable

/-- A write of RESTART := 1 (R289, R290). -/
def State.restartQueue (s : State) (q : Fin 20) : State :=
  s.modQueue q fun x =>
    if x.state = .stopped ∨ x.state = .error then
      { x with list := none, stack := [], code := 0, state := .running, block := none }
    else x

/-- A write of QTAIL (R289). -/
def State.writeTail (s : State) (q : Fin 20) (v : Word) : State :=
  let x := s.queues.get q
  let t := v.toNat % 2 ^ 32
  if 16 ≤ q.val then s
  else
    let s1 := s.modQueue q fun x => { x with tail := t }
    if x.ring ≤ t then s1.queueStop q .error 0x0801 else s1

/-- A write of a queue register (R289). -/
def State.writeQueue (s : State) (q : Fin 20) (o : Nat) (v : Word) : State :=
  let x := s.queues.get q
  let internal : Bool := 16 ≤ q.val
  match o with
  | 0x00 => if internal then s else s.modQueue q fun x => { x with base := v.toNat % 2 ^ 48 / 32 * 32 }
  | 0x08 => if internal then s else s.modQueue q fun x => { x with size := v.toNat % 2 ^ 32 }
  | 0x10 =>
    if internal || !(x.state == .disabled || x.state == .stopped || x.state == .error) then s
    else s.modQueue q fun x => { x with head := v.toNat % 2 ^ 32 }
  | 0x18 => s.writeTail q v
  | 0x20 =>
    let s1 := s.modQueue q fun x =>
      { x with vec := bitsOf v.toNat 8 6, irqen := bitOf v.toNat 7, cls := bitsOf v.toNat 5 2 }
    if bitOf v.toNat 0 then
      let s2 := s1.enableQueue q
      if bitOf v.toNat 1 then s2.restartQueue q else s2
    else s1.disableQueue q
  | _ => s

/-- Starts a Lantern from LPC (R286). -/
def Lantern.start (l : Lantern) : Lantern :=
  if l.run then l
  else { l with run := true, core := { l.core with pc := l.lpc.toNat, xfer := none, target := false, ctl := none }, waits := [] }

/-- Stops a Lantern after the current bundle (R286); a wait that holds its next bundle ends (R301). -/
def Lantern.stop (l : Lantern) : Lantern := { l with run := false, waits := [] }

/-- A write of a Lantern register (R286). -/
def Lantern.write (l : Lantern) (o : Nat) (v : Word) : Lantern :=
  match o with
  | 0x00 =>
    let l1 := if bitOf v.toNat 2 then { l with halted := false } else l
    if bitOf v.toNat 0 then l1.start else l1.stop
  | 0x08 => if l.run then l else { l with lpc := v.truncate 32 }
  | 0x10 => { l with lvec := v.truncate 32 }
  | 0x18 => { l with lepc := v.truncate 32 }
  | 0x30 => { l with root := bitsOf v.toNat 12 28, mmuOn := bitOf v.toNat 0 }
  | _ => l

/-- COMMIT (R387). -/
def Module.commit (m : Module) : Module :=
  if m.acc.getLsbD 0 && (m.acc &&& ~~~m.feat) == 0 then { m with ready := true, err := false }
  else { m with err := true }

/-- Starts the attestation report when the block is idle (R399). -/
def State.startAttest (s : State) : State :=
  if s.mod_.attest.busy.isSome then s
  else
    { s with mod_ := { s.mod_ with attest :=
        { s.mod_.attest with busy := some (s.wcy + s.timing.attest), done := false, latched := s.mod_.attest.nonce } } }

/-- A write of a module register (R387, R393, R395, R399). -/
def State.writeModule (s : State) (o : Nat) (v : Word) : State :=
  let m := s.mod_
  match o with
  | 0x08 => if m.ready then s else { s with mod_ := { m with acc := v.truncate 7 } }
  | 0x10 =>
    let m1 := { m with evt := m.evt &&& ~~~(v >>> 16).truncate 8 }
    { s with mod_ := if bitOf v.toNat 0 then m1.commit else m1 }
  | 0x18 =>
    { s with mod_ := { m with gidx := bitsOf v.toNat 16 8, win2 := bitsOf v.toNat 8 8, modid := bitsOf v.toNat 0 8 } }
  | 0x20 => s.setPower { m with caplvl := bitsOf v.toNat 0 3 }
  | 0x70 => if bitOf v.toNat 0 then s.startAttest else s
  | _ =>
    if 0x40 ≤ o && o < 0x70 then
      let k := o - 0x40
      { s with mod_ := { m with attest :=
          { m.attest with nonce := m.attest.nonce.take k ++ leBytes 8 v.toNat ++ m.attest.nonce.drop (k + 8) } } }
    else s

/-! ## Event counters (R292) -/

/-- sat(x + v, 0, 2^64 - 1). -/
def satAdd (x v : Word) : Word := if 2 ^ 64 ≤ x.toNat + v.toNat then BitVec.allOnes 64 else x + v

/-- One update of an event counter. -/
def EvOp.apply (op : EvOp) (x v : Word) : Word :=
  match op with
  | .set => v
  | .add => satAdd x v
  | .max => if x.toNat < v.toNat then v else x

def State.event (s : State) (j : Nat) : Word := s.events.get (Fin.ofNat 1024 j)

/-- The parties that update a counter, in the order in which their updates of one reference cycle apply (R292). -/
inductive EvParty where
  | host
  | lantern (n : Fin 4)
  | completion
  | walker (q : Fin 20)
  deriving DecidableEq, Repr

def EvParty.rank : EvParty → Nat
  | .host => 0
  | .lantern n => 1 + n.val
  | .completion => 5
  | .walker q => 6 + q.val

/-- Inserts an update behind those of its own party and of the parties before it. -/
def insertUp (x : Nat × EvOp × Word) : List (Nat × EvOp × Word) → List (Nat × EvOp × Word)
  | [] => [x]
  | y :: ys => if x.1 < y.1 then x :: y :: ys else y :: insertUp x ys

/-- The value of a counter after updates in order. -/
def applyUps (base : Word) (ups : List (Nat × EvOp × Word)) : Word :=
  ups.foldl (fun x u => Sys2Proof.Machine.EvOp.apply u.2.1 x u.2.2) base

/-- An update of counter j: it takes its place among those of the present reference cycle (R292). -/
def State.signal (s : State) (p : EvParty) (op : EvOp) (j : Nat) (v : Word) : State :=
  let c := (s.evCycle.find? fun c => c.ev == j).getD ⟨j, s.event j, []⟩
  let ups := insertUp (p.rank, op, v) c.ups
  { s with events := s.events.set (Fin.ofNat 1024 j) (applyUps c.base ups),
           evCycle := { c with ups := ups } :: s.evCycle.filter fun c => c.ev != j }

/-- The ADD 1 of a completion. -/
def State.bump (s : State) (p : EvParty) (j : Nat) : State := s.signal p .add j 1

/-- Whether a control-space offset works: after a boot that failed only the module registers that say so and the attestation
block do (R397). DEDUCED, log entry 93. -/
def State.ctlWorks (s : State) (off : Nat) : Bool :=
  s.mod_.feat != 0 || (0x0E0000 ≤ off && off < 0x0E0018) || (0x0E0040 ≤ off && off < 0x0F0000)

/-- What a write of the register at an offset does, if the register works. -/
def State.atReg (s : State) (off : Nat) (f : State → State) : State := if s.ctlWorks off then f s else s

/-- What a read of the eight bytes at an aligned offset delivers (R7, R397). -/
def State.ctlWord (s : State) (off : Nat) : Word := if s.ctlWorks off then s.readCtl off else 0

/-- A write by a party of 8 bytes of control space at an aligned offset. -/
def State.writeCtl (s : State) (p : EvParty) (off : Nat) (v : Word) : State :=
  let page := off / 0x10000
  let lo := off % 0x10000
  if !s.ctlWorks off then s
  else if off < 0x400 then s.modLantern (Fin.ofNat 4 (lo / 0x100)) fun l => l.write (lo % 0x100) v
  else if page = 1 ∧ lo < 0x40 * 20 then s.writeQueue (Fin.ofNat 20 (lo / 0x40)) (lo % 0x40) v
  else if page = 2 ∧ lo < 8 * 1024 then s.signal p .set (lo / 8) v
  else if page = 8 ∧ lo < 8 * 80 then
    { s with due := setKey 0 s.due (lo / 8) (v.toNat / 2 ^ 32), dce := setKey 0 s.dce (lo / 8) (v.toNat % 2 ^ 32) }
  else if page = 0x0E then s.writeModule lo v
  else s

end Sys2Proof.Machine
end

