-- ==== Sys2Proof/Machine/Bulk.lean ====
section
/-! DEFINITION. Bulk memory at its frames (R219 to R222, R242, R258, R260): page lookups of the window map and of the
Lantern MMU, and reads and writes of slice, replicated and host frames with their check bits. -/

namespace Sys2Proof.Machine

/-! ## Frames -/

/-- A device physical address of an offset in a slice (R220). -/
def dpa (slice off : Nat) : Nat := slice * 2 ^ 32 + off

/-- The memory a place lies in and its address there; a replicated frame is read at the slice given. -/
def Place.phys (p : Place) (slice : Nat) : Bool × Nat :=
  match p.kind with
  | 0 => (false, p.addr)
  | 1 => (false, dpa slice (p.addr % 2 ^ 32))
  | _ => (true, p.addr)

/-- Counts a corrected DRAM word of a slice (R242, R349). -/
def State.countDce (s : State) (slice n : Nat) : State :=
  if n = 0 then s else { s with dce := setKey 0 s.dce slice (min (lookupKey 0 s.dce slice + n) 0xFFFF_FFFF) }

/-- Counts uncorrectable DRAM words delivered poisoned (R349). -/
def State.countDue (s : State) (slice n : Nat) : State :=
  if n = 0 then s else { s with due := setKey 0 s.due slice (min (lookupKey 0 s.due slice + n) 0xFFFF_FFFF) }

/-- Reads n bytes at a place, which lie in one frame: the bytes, the poison of each, and the words that were found
uncorrectable or failed, with the slice counters moved (R242, R349). -/
def State.readPlace (s : State) (p : Place) (slice n : Nat) : State × List Byte × List Bool × List Nat :=
  let (host, a) := p.phys slice
  let m := if host then s.host else s.dram
  let bad := m.uncorrectables a n
  let s1 := if host then s else (s.countDce (a / 2 ^ 32) (m.correctables a n).length).countDue (a / 2 ^ 32) bad.length
  (s1, m.bytes a n, (List.range n).map fun j => m.bytePoison (a + j), bad)

/-- A write of bytes with a poison mark each: a word that receives a poisoned byte becomes poisoned (R191, R242). -/
def writeMarked (m : Mem) (a : Nat) (bs : List Byte) (ps : List Bool) : Mem :=
  (wordsOf a bs.length).foldl (fun x w =>
    let ws := (List.range 8).map fun j => a ≤ 8 * w + j && ps.getD (8 * w + j - a) false
    x.setMark w (mergeMark (m.mark w) (a ≤ 8 * w && 8 * w + 8 ≤ a + bs.length) (ws.any id))) (m.setBytes a bs)

/-- Writes bytes at one place in slice memory or host memory. -/
def State.writePhys (s : State) (host : Bool) (a : Nat) (bs : List Byte) (ps : List Bool) : State :=
  if host then { s with host := writeMarked s.host a bs ps }
  else
    let n := (wordsOf a bs.length).filter fun w =>
      (s.dram.mark w).err == .correctable && !(a ≤ 8 * w && 8 * w + 8 ≤ a + bs.length)
    { s.countDce (a / 2 ^ 32) n.length with dram := writeMarked s.dram a bs ps }

/-- Writes bytes at a place; a replicated frame takes them in all 80 copies (R238, R260). DESIGN CHOICE, log entry 68. -/
def State.writePlace (s : State) (p : Place) (bs : List Byte) (ps : List Bool) : State :=
  if p.kind = 1 then
    (List.range 80).foldl (fun s k => s.writePhys false (dpa k (p.addr % 2 ^ 32)) bs ps) s
  else s.writePhys (p.kind = 2) p.addr bs ps

/-! ## Window maps (R220, R221, R330) -/

/-- The page of a launch that covers a VA. DEDUCED, log entry 52. -/
def pageOf (pages : List Page) (va : Nat) : Option Page := pages.find? fun p => p.va ≤ va && va < p.va + p.size

/-- The place of a VA in a page. -/
def Page.place (p : Page) (va : Nat) : Place := ⟨p.kind, p.frame + (va - p.va)⟩

/-- Whether a page is phased (R222). -/
def Page.phased (p : Page) : Bool := !p.hc

/-! ## The Lantern MMU (R288) -/

/-- A translation: the place, and the attributes of the page. -/
structure Xlat where
  place : Place
  hc : Bool
  rp : Bool
  ap : Bool
  wt : Bool
  ro : Bool
  deriving DecidableEq, Repr

/-- The shift of a level's index (R288). -/
def levelShift (level : Nat) : Nat := 12 + 9 * (4 - level)

/-- One table entry at a slice DPA, read as any DRAM word: a correction is counted, and poisoned or uncorrectable data take
0x0306 at the access (R285, R349). -/
def State.tableEntry (s : State) (base idx : Nat) : State × Except Nat Nat :=
  let (s1, bs, ps, bad) := s.readPlace ⟨0, base + 8 * idx⟩ 0 8
  (s1, if ps.any id || !bad.isEmpty then .error 0x0306 else .ok (leNat bs))

/-- The leaf of a walk at an entry: fault code or translation (R288, R222). DEDUCED, log entry 15. -/
def leafOf (level va e : Nat) : Except Nat Xlat :=
  let kind := bitsOf e 10 2
  let hc := bitOf e 9
  let rp := bitOf e 8
  let ap := bitOf e 7
  let wt := bitOf e 6
  let forbidden := (hc && (rp || ap || wt)) || (rp && kind == 2)
  let size := 2 ^ levelShift level
  let frame := e / 4096 % 2 ^ 40 * 4096 / size * size
  -- DEDUCED, log entry 15: R220 gives slices 0 to 79 only, so a frame outside them has no mapping.
  let outside := (kind == 0 && Config.dpaEnd < frame + size) || (kind == 1 && 2 ^ 32 < frame + size)
  if forbidden then .error 0x0304
  else if outside then .error 0x0303
  else .ok ⟨⟨kind, frame + va % size⟩, hc, rp, ap, wt, bitOf e 5⟩

/-- The walk from a level on: entries are read at slice DPAs (R288). -/
def State.walk (s : State) (va : Nat) : (fuel level base : Nat) → State × Except Nat (Xlat × Nat × Nat)
  | 0, _, _ => (s, .error 0x0303)
  | fuel + 1, level, base =>
    match s.tableEntry base (va / 2 ^ levelShift level % 512) with
    | (s1, .error c) => (s1, .error c)
    | (s1, .ok e) =>
      let reserved := bitsOf e 52 12 != 0 || bitsOf e 2 3 != 0
      if !bitOf e 0 || reserved || bitsOf e 10 2 == 3 then (s1, .error 0x0303)
      else if bitOf e 1 then
        if level = 1 then (s1, .error 0x0303)
        else
          match leafOf level va e with
          | .ok x => (s1, .ok (x, level, e))
          | .error c => (s1, .error c)
      else if level = 4 then (s1, .error 0x0303)
      else s1.walk va fuel (level + 1) (e / 4096 % 2 ^ 40 * 4096)

/-- A cached translation of a VA, if the cache holds one. -/
def tlbFind (tlb : List TlbEntry) (va : Nat) : Option TlbEntry :=
  tlb.find? fun t => va / 2 ^ levelShift t.level == t.vpage

/-- Translates a VA for Lantern n: the cache first, then the tables; the cache keeps at most 64 entries, the oldest
leaving (R288). DESIGN CHOICE, log entry 39. -/
def State.translate (s : State) (n : Fin 4) (va : Nat) : State × Except Nat Xlat :=
  let l := s.lanterns.get n
  if !l.mmuOn || 2 ^ 48 ≤ va then (s, .error 0x0303)
  else
    match tlbFind l.tlb va with
    | some t => (s, leafOf t.level va t.entry)
    | none =>
      match s.walk va 4 1 (l.root * 4096) with
      | (s1, .error c) => (s1, .error c)
      | (s1, .ok (x, level, e)) =>
        (s1.modLantern n fun l => { l with tlb := (⟨va / 2 ^ levelShift level, level, e⟩ :: l.tlb).take 64 }, .ok x)

/-- The pieces of n bytes at a VA that lie in one 4 KiB page each. -/
def pagePieces : (fuel va n : Nat) → List (Nat × Nat)
  | 0, _, _ => []
  | fuel + 1, va, n =>
    if n = 0 then []
    else
      let k := min n (4096 - va % 4096)
      (va, k) :: pagePieces fuel (va + k) (n - k)

/-- The frames of n bytes at a VA for Lantern n, page by page, or the fault of the access (R260, R288). -/
def State.piecesVa (s : State) (n : Fin 4) (va len : Nat) (wr : Bool) : State × Except Nat (List (Place × Nat)) :=
  (pagePieces (len / 4096 + 2) va len).foldl (fun (acc : State × Except Nat (List (Place × Nat))) p =>
    match acc.2 with
    | .error c => (acc.1, .error c)
    | .ok xs =>
      match acc.1.translate n p.1 with
      | (s1, .error c) => (s1, .error c)
      | (s1, .ok x) => if wr && x.ro then (s1, .error 0x0304) else (s1, .ok (xs ++ [(x.place, p.2)]))) (s, .ok [])

/-- Reads the bytes of frames in order; a replicated frame is read in slice 0 (R258). -/
def State.readPieces (s : State) (ps : List (Place × Nat)) : State × List Byte × Bool :=
  ps.foldl (fun (acc : State × List Byte × Bool) p =>
    let (s1, b, bad, _) := acc.1.readPlace p.1 0 p.2
    (s1, acc.2.1 ++ b, acc.2.2 || bad.any id)) (s, [], false)

/-- Writes bytes to frames in order. -/
def State.writePieces (s : State) (ps : List (Place × Nat)) (bs : List Byte) : State :=
  (ps.foldl (fun (acc : State × List Byte) p =>
    (acc.1.writePlace p.1 (acc.2.take p.2) (List.replicate p.2 false), acc.2.drop p.2)) (s, bs)).1

/-- Reads n bytes at a VA through the MMU of Lantern n. -/
def State.readVa (s : State) (n : Fin 4) (va len : Nat) : State × Except Nat (List Byte × Bool) :=
  match s.piecesVa n va len false with
  | (s1, .error c) => (s1, .error c)
  | (s1, .ok ps) =>
    let (s2, bs, bad) := s1.readPieces ps
    (s2, .ok (bs, bad))

/-- Whether n bytes at a VA translate, and may be written when `wr`. -/
def State.checkVa (s : State) (n : Fin 4) (va len : Nat) (wr : Bool) : State × Option Nat :=
  match s.piecesVa n va len wr with
  | (s1, .error c) => (s1, some c)
  | (s1, .ok _) => (s1, none)

/-- Writes bytes at a VA through the MMU of Lantern n; the caller has checked it. -/
def State.writeVa (s : State) (n : Fin 4) (va : Nat) (bs : List Byte) : State :=
  match s.piecesVa n va bs.length true with
  | (s1, .error _) => s1
  | (s1, .ok ps) => s1.writePieces ps bs

/-! ## Atomics -/

/-- The new value of an atomic (R134, R247, R320). -/
def atomValue (op : AtomOp) (old b expected : Word) : Word :=
  match op with
  | .add => old + b
  | .min => if old.slt b then old else b
  | .max => if b.slt old then old else b
  | .and => old &&& b
  | .or => old ||| b
  | .xor => old ^^^ b
  | .swap => b
  | .cas => if old = expected then b else old

/-- Applies an atomic at a place: old value, its poison, and the state after; a poisoned word is left alone and
stays poisoned (R134, R247); a replicated frame is read in slice 0 and written in every copy (R260). -/
def State.atomPlace (s : State) (p : Place) (op : AtomOp) (b expected : Word) (poison : Bool) : State × Word × Bool :=
  let (s1, bs, ps, _) := s.readPlace p 0 8
  let old := word (leNat bs)
  let bad := ps.any id
  if bad then
    (s1.writePlace p bs (List.replicate 8 true), old, true)
  else
    (s1.writePlace p (leBytes 8 (atomValue op old b expected).toNat) (List.replicate 8 poison), old, false)

end Sys2Proof.Machine
end

