-- ==== Sys2Proof/Machine/Flags.lean ====
section
/-! DEFINITION. Condition and flag computations: the compare conditions of R120, the predicate logic of R121, and the
FFLAGS that an instruction's elements raise (R79). -/

namespace Sys2Proof.Machine

/-- A compare condition on 64-bit values (R120). -/
def condHolds (c : Cond) (a b : Word) : Bool :=
  match c with
  | .eq => a == b
  | .ne => a != b
  | .lt => a.slt b
  | .ge => !a.slt b
  | .ltu => a.ult b
  | .geu => !a.ult b

/-- The four PLOG operations (R121). -/
def plogHolds (op : PlogOp) (x y : Bool) : Bool :=
  match op with
  | .and => x && y
  | .or => x || y
  | .xor => x ^^ y
  | .andn => x && !y

/-- The flags of several elements together: only enabled ones raise any (R79, R193). -/
def orFlags (fs : List FFlags) : FFlags := fs.foldl (· ||| ·) 0

end Sys2Proof.Machine
end

