-- ==== Sys2Proof/Machine/Record.lean ====
section
/-! DEFINITION. The tape recorder of a tile (R269 to R274, R279): records, repeat compression and invalidation. -/

namespace Sys2Proof.Machine

/-- The words of Taper memory (R267). -/
def taperWords : Nat := Config.taperSize / 8

/-- Writes one 64-bit word of Taper memory. -/
def Tile.setTaperWord (t : Tile) (k : Nat) (v : Nat) : Tile := { t with tape := t.tape.writeNat (8 * k) 8 v false }

/-- Invalidates a tape, open or ended: the first event counts, and the header is to be written (again) (R274, R283). -/
def Tile.invalidateTape (t : Tile) (reason cyc addr : Nat) : Tile :=
  if t.rec_.exists_ && t.rec_.reason == 0 then
    { t with rec_ := { t.rec_ with tinv := true, reason := reason, invCyc := cyc, invAddr := addr, headed := false } }
  else t

/-- Whether the slots of the present bundle are recorded: an open tape, within the span (R271). -/
def Tile.recording (t : Tile) : Bool := t.rec_.open_ && t.rec_.span

/-- Whether records are still written: the tape is open and not invalid. -/
def Tile.writesTape (t : Tile) : Bool := t.rec_.open_ && t.rec_.reason == 0

/-- The schedule cycle and the code-store address of the slot for which records are written: what INVCYC and INVADDR
take if one of them does not fit (R269). -/
structure Stamp where
  cyc : Nat
  addr : Nat
  deriving DecidableEq, Repr

/-- Appends the words of one record; one that would pass the end invalidates the tape with 0x0702 (R274). -/
def Tile.emitWords (t : Tile) (at_ : Stamp) (ws : List Nat) : Tile :=
  if !t.writesTape then t
  else if taperWords < 8 + t.rec_.nrec + ws.length then t.invalidateTape 0x0702 at_.cyc at_.addr
  else
    let t1 := ws.foldl (fun (x : Tile × Nat) w => (x.1.setTaperWord x.2 w, x.2 + 1)) (t, 8 + t.rec_.nrec)
    { t1.1 with rec_ := { t1.1.rec_ with nrec := t.rec_.nrec + ws.length } }

/-- The first word of a record of a type (R270). -/
def recHead (ty fields : Nat) : Nat := ty * 2 ^ 60 + fields

/-- Emits one CMD or IMM record; DELTA counts from the previous CMD (R270). -/
def Tile.emitRec (t : Tile) (p : Stamp) : TRec → Tile
  | .cmd at_ slot w =>
    let t1 := t.emitWords p [recHead 1 ((at_ - t.rec_.last) * 2 ^ 48 + slot * 2 ^ 45 + w.toNat)]
    { t1 with rec_ := { t1.rec_ with last := at_ } }
  | .imm v => t.emitWords p [recHead 2 0, v.toNat]

def Tile.emitRecs (t : Tile) (p : Stamp) (xs : List TRec) : Tile := xs.foldl (fun t x => t.emitRec p x) t

/-- The cycle of the last CMD of a list of records. -/
def lastCmd (dflt : Nat) : List TRec → Nat
  | [] => dflt
  | .cmd a _ _ :: rest => lastCmd a rest
  | .imm _ :: rest => lastCmd dflt rest

def firstCmd : List TRec → Option Nat
  | [] => none
  | .cmd a _ _ :: _ => some a
  | .imm _ :: rest => firstCmd rest

def immsOf : List TRec → List Word
  | [] => []
  | .imm v :: rest => v :: immsOf rest
  | .cmd _ _ _ :: rest => immsOf rest

/-- X NOPs that fill a gap of more than 4,095 cycles (R270). -/
def fillers : (fuel from_ to_ : Nat) → List TRec
  | 0, _, _ => []
  | fuel + 1, from_, to_ =>
    if from_ + 4095 < to_ then .cmd (from_ + 4095) 0 0x6000_0000 :: fillers fuel (from_ + 4095) to_ else []

/-- The schedule cycle of the command before the next one, those that compression holds back among them (R270, R273). -/
def Recorder.prevCmd (r : Recorder) : Nat := if r.body.isEmpty then r.last else lastCmd (lastCmd r.last r.body) r.cur

/-- Whether an iteration repeats the one before it: the same words and gaps, shifted by one period (R273). -/
def sameShape (p : Nat) : List TRec → List TRec → Bool
  | [], [] => true
  | .cmd a s w :: xs, .cmd b s' w' :: ys => b == a + p && s == s' && w == w' && sameShape p xs ys
  | .imm _ :: xs, .imm _ :: ys => sameShape p xs ys
  | _, _ => false

/-- Writes the pending REP record, if any (R270, R273). -/
def Tile.flushRep (t : Tile) (p : Stamp) : Tile :=
  if t.rec_.reps = 0 then t
  else
    let r := t.rec_
    let t1 := t.emitWords p
      (recHead 4 (r.period.getD 0 * 2 ^ 48 + r.reps * 2 ^ 32 + r.body.length * 2 ^ 16 + r.strides.length)
        :: r.strides.map (·.toNat))
    { t1 with rec_ := { t1.rec_ with reps := 0, period := none, strides := [], last := lastCmd r.last r.body } }

/-- The most records that the body of a REP has (R270, R273). -/
def repMax : Nat := 64

/-- Records a command of the slot at a stamp, and the values it consumed (R271, R273). The records of an iteration that
may still repeat the one before it are held back; one that grows past it is written, and becomes the next body unless it
is too long for one. -/
def Tile.record (t : Tile) (p : Stamp) (slot : Nat) (w : BitVec 32) (imms : List Word) : Tile :=
  if !t.recording || !t.writesTape then t
  else
    let r := t.rec_
    let prev := r.prevCmd
    let items := fillers ((p.cyc - prev) / 4095) prev p.cyc ++ (.cmd p.cyc slot w :: imms.map .imm)
    let plain (t : Tile) (held : List TRec) : Tile :=
      { t with rec_ := { t.rec_ with body := [], cur := (r.cur ++ items).take (repMax + 1) } }.emitRecs p (held ++ items)
    if r.depth = 0 then t.emitRecs p items
    else if r.body.isEmpty then plain t []
    else if r.cur.length + items.length ≤ r.body.length then { t with rec_ := { r with cur := r.cur ++ items } }
    else plain (t.flushRep p) r.cur

/-- An iteration of the compressed level is complete (R273). -/
def Tile.endIteration (t : Tile) (at_ : Stamp) : Tile :=
  let r := t.rec_
  if r.depth = 0 then t
  else if r.body.isEmpty then { t with rec_ := { r with body := if r.cur.length ≤ repMax then r.cur else [], cur := [] } }
  else
    let p := (firstCmd r.cur).getD 0 - (firstCmd r.body).getD 0
    let strides := List.zipWith (fun (x y : Word) => y - x) (immsOf r.body) (immsOf r.cur)
    let fits := 2 ≤ r.body.length && r.body.length ≤ repMax && p ≤ 4095 && sameShape p r.body r.cur &&
      (r.reps == 0 || (r.period == some p && r.strides == strides && decide (r.reps < 65535)))
    if fits then
      { t with rec_ := { r with body := r.cur, cur := [], period := some p, strides := strides, reps := r.reps + 1 } }
    else
      let t1 := (t.flushRep at_).emitRecs at_ r.cur
      { t1 with rec_ := { t1.rec_ with body := r.cur, cur := [] } }

/-- Compression of the present level ends: what is held is written (R273). -/
def Tile.closeLevel (t : Tile) (p : Stamp) : Tile :=
  let r := t.rec_
  if r.depth = 0 then t
  else
    let t1 := t.flushRep p
    let t2 := if r.body.isEmpty then t1 else t1.emitRecs p r.cur
    { t2 with rec_ := { t2.rec_ with depth := 0, body := [], cur := [], period := none, strides := [], reps := 0 } }

/-- A hardware loop level opens at a depth: it becomes the innermost (R273). DEDUCED, log entry 46. -/
def Tile.openLevel (t : Tile) (p : Stamp) (depth : Nat) : Tile :=
  if !t.recording then t
  else
    let t1 := t.closeLevel p
    { t1 with rec_ := { t1.rec_ with depth := depth } }

/-- The place of a register in the masks of R279. -/
def maskIndex : SOp → Nat
  | .s n => n.val
  | .o n => 48 + n.val
  | .l => 56

/-- Notes the registers that an S instruction, RDCYC or RDWALL writes within the span (R279). -/
def Tile.noteWrites (t : Tile) (ds : List SOp) : Tile :=
  if !t.recording then t
  else
    let m := ds.foldl (fun (m : BitVec 57) d =>
      if d = .s 0 then m else m ||| BitVec.ofNat 57 (2 ^ maskIndex d)) t.rec_.wmask
    { t with rec_ := { t.rec_ with wmask := m } }

def Tile.notePair (t : Tile) (k : Fin 8) : Tile :=
  if !t.recording then t
  else { t with rec_ := { t.rec_ with wqmask := t.rec_.wqmask ||| BitVec.ofNat 16 (3 * 4 ^ k.val) } }

end Sys2Proof.Machine
end

