-- ==== Sys2Proof/Machine/Issue.lean ====
section
/-! DEFINITION. The issue of one slot: suppression by a guard or an empty loop level, the checks that every slot
meets, taint and poison used as control, and recording (R35, R36, R54, R96 to R98, R102, R129, R271). -/

namespace Sys2Proof.Machine

/-- How a slot uses registers. -/
structure Use where
  /-- The instruction itself, for its encoding on a tape. -/
  insn : Instr
  /-- The guarding predicate; none for SEL, whose field is no guard (R35, R116). -/
  guard : Option Guard
  /-- The only kind of core that runs it, if not both (R54). -/
  only : Option CoreKind
  /-- S operands read, in the order their values are recorded (R271), each with whether it counts as control (R98). -/
  srcs : List (SOp × Bool)
  /-- S operands named as destinations. -/
  dsts : List SOp
  /-- The reasons of R274 for a tainted guard and for a tainted source, and one that applies at every issue. -/
  guardReason : Nat
  srcReason : Option Nat
  always : Option Nat
  /-- Whether an issue is recorded as a CMD (R271). -/
  taped : Bool

/-- Whether a level with a count of 0 suppresses the slots of the bundle (R129). -/
def Core.suppressed (c : Core) : Bool := c.loops.any (·.supp)

/-- Whether the state of a tile's bank allows a use of a register (R102, R359). -/
def Tile.bankOff (t : Tile) (d : SOp) : Bool :=
  match regBank d with
  | none => false
  | some .bank1 => t.bank1.st != .on || t.bank1.wake.isSome
  | some .bank2 => t.bank2.st != .on || t.bank2.wake.isSome

/-- The register number that FADDR holds for 0x0501 (R360). -/
def regNumber : SOp → Nat := SOp.code

/-- The first operand in a bank that is not on (R102); a Lantern's banks are always on. -/
def State.badBank (s : State) (ds : List SOp) : Option SOp :=
  match s.focusTile? with
  | none => none
  | some t => ds.find? t.bankOff

/-- The values of the sources: the registers, or during replay the values of the tape, clean (R272, R278). -/
def sourceValues (c : Core) (imms : Option (List Word)) (srcs : List (SOp × Bool)) : List SReg :=
  match imms with
  | none => srcs.map fun x => c.readS x.1
  | some vs => (List.range srcs.length).map fun i => ⟨vs.getD i 0, false, false⟩

/-- The first control source whose value is poisoned (R98). -/
def poisonedControl : List (SOp × Bool) → List SReg → Option SOp
  | (d, ctl) :: ds, v :: vs => if ctl && v.poison then some d else poisonedControl ds vs
  | _, _ => none

/-- The byte address of the slot that is issuing. -/
def State.slotAddr (s : State) (c : Core) : Nat := c.pc + 4 * s.slot

/-- The word of an instruction with guard q0 and stop bit 0 (R270). -/
def tapeWord (i : Instr) : BitVec 32 :=
  match encodeFields i with
  | some (cls, op, _, opr) => BitVec.ofNat 32 (cls * 268435456 + op * 262144 + opr)
  | none => 0

/-- The slot position that a tape records for the slot that is issuing (R270): its class's position by R37. -/
def tapeSlot (i : Instr) (second : Bool) : Nat :=
  match encodeFields i with
  | some (cls, _) =>
    match cls with
    | 1 => if second then 2 else 1
    | 2 => 3
    | 3 => if second then 5 else 4
    | 4 => 6
    | 5 => 7
    | _ => 0
  | none => 0

/-- Notes an invalidating event of the issuing tile while it records (R36, R97, R274). -/
def State.invalidate (s : State) (reason : Nat) (c : Core) : State :=
  s.modFocus fun t => if t.recording then t.invalidateTape reason s.env.scy (s.slotAddr c) else t

/-- The same for a reason of R274 that the form has, if a condition holds. -/
def State.noteIf (s : State) (b : Bool) (reason : Option Nat) (c : Core) : State :=
  match reason with
  | some r => if b then s.invalidate r c else s
  | none => s

/-- A fault at the issuing slot. -/
def State.trapAt (s : State) (code : Nat) (faddr : Word) : Trap := ⟨code, faddr, s.slot⟩

/-- The checks of a slot that issues under its guard, then its effect (R102, R98, R97). -/
def issueBody (u : Use) (second : Bool) (s : State) (c : Core)
    (body : List SReg → State → Except Trap State) : Host.Outcome State Fault Refusal :=
  match s.badBank (u.srcs.map (·.1) ++ u.dsts) with
  | some d => .next (s.takeFault (s.trapAt 0x0501 (word (regNumber d))))
  | none =>
    let vs := sourceValues c s.imms u.srcs
    match poisonedControl u.srcs vs with
    | some d => .next (s.takeFault (s.trapAt 0x0306 (word (0x100 + d.code))))
    | none =>
      match body vs ((s.noteIf (vs.any (·.taint)) u.srcReason c).noteIf true u.always c) with
      | .error f => .next (s.takeFault f)
      | .ok s3 =>
        .next (if u.taped then
            s3.modFocus fun t => t.record ⟨s.env.scy, s.slotAddr c⟩ (tapeSlot u.insn second) (tapeWord u.insn) (vs.map (·.val))
          else s3)

/-- The issue of one slot by the focused core. DEDUCED, log entry 23. -/
def issue (u : Use) (s0 : State) (body : List SReg → State → Except Trap State) :
    Host.Outcome State Fault Refusal :=
  match s0.coreOf s0.focus with
  | none => .fault .noCore
  | some c0 =>
    let second := s0.second
    let s := s0.modCore fun c => { c with seq := c.seq + 1 }
    if c0.suppressed then .next s
    else if u.only.any (· != agentKind s.focus) then
      .next (s.takeFault (s.trapAt 0x0106 (word (s.slotAddr c0))))
    else
      let c := { c0 with seq := c0.seq + 1 }
      match u.guard with
      | none => issueBody u second s c body
      | some g =>
        if s.imms.isSome then issueBody u second s c body
        else
          let q := c.readQ g
          if q.poison then .next (s.takeFault (s.trapAt 0x0306 (word g.val)))
          else
            let s := s.noteIf q.taint (some u.guardReason) c
            if q.val then issueBody u second s c body else .next s

/-- The issue of a class NOP: no effect, whatever its guard (R136, R157, R182, R196, R241, R322). -/
def issueNop (only : Option CoreKind) (s : State) : Host.Outcome State Fault Refusal :=
  match s.coreOf s.focus with
  | none => .fault .noCore
  | some c =>
    let s1 := s.modCore fun c => { c with seq := c.seq + 1 }
    if only.any (· != agentKind s.focus) then .next (s1.takeFault (s1.trapAt 0x0106 (word (s1.slotAddr c))))
    else .next s1

/-- The n-th source value. -/
def srcAt (vs : List SReg) (n : Nat) : SReg := vs.getD n .zero

end Sys2Proof.Machine
end

