-- ==== Sys2Proof/Machine/Operands.lean ====
section
/-! DEFINITION. Operand forms: the register forms of the S class and how their results land (R45, R46, R93, R99). -/

namespace Sys2Proof.Machine

/-- An S slot with plain data sources and one destination. -/
def useS (i : Instr) (g : Option Guard) (srcs : List SOp) (dsts : List SOp) : Use :=
  { insn := i, guard := g, only := none, srcs := srcs.map fun x => (x, false), dsts := dsts, guardReason := 0x0002,
    srcReason := none, always := none, taped := false }

/-- Lands a register result of an S instruction in d and in l, with the marks given (R93, R99). -/
def State.landS (s : State) (d : SOp) (v : Word) (taint poison : Bool) (latO latS : Nat) : State :=
  let s := s.modCore fun c => (c.wr s.env.ctl d ⟨v, taint, poison⟩ latO latS true).busy (s.env.ctl + latTo latO latS d)
  s.modFocus fun t => t.noteWrites [d, .l]

/-- The register form d, a, b (R113, R118, R119): v is computed from the two values. -/
def aluR (i : Instr) (g : Guard) (d a b : SOp) (latO latS : Nat) (f : Word → Word → Word) (s : State) :
    Host.Outcome State Fault Refusal :=
  issue (useS i (some g) [a, b] [d]) s fun vs s =>
    let m := marksOf vs
    .ok (s.landS d (f (srcAt vs 0).val (srcAt vs 1).val) m.1 m.2 latO latS)

/-- The immediate form d, a, imm (R114). -/
def aluI (i : Instr) (g : Guard) (d a : SOp) (imm : Word) (f : Word → Word → Word) (s : State) :
    Host.Outcome State Fault Refusal :=
  issue (useS i (some g) [a] [d]) s fun vs s =>
    let m := marksOf vs
    .ok (s.landS d (f (srcAt vs 0).val imm) m.1 m.2 1 2)

/-- The unary form d, a (R117). -/
def aluU (i : Instr) (g : Guard) (d a : SOp) (f : Word → Word) (s : State) : Host.Outcome State Fault Refusal :=
  issue (useS i (some g) [a] [d]) s fun vs s =>
    let m := marksOf vs
    .ok (s.landS d (f (srcAt vs 0).val) m.1 m.2 1 2)

/-- sx(imm6, 64) and zx(imm6, 64) (R46, R114). -/
def sx6 (imm : BitVec 6) : Word := imm.signExtend 64
def zx6 (imm : BitVec 6) : Word := imm.zeroExtend 64

/-- Lands a predicate pair one control cycle after issue (R99, R120). -/
def State.landPair (s : State) (k : Fin 8) (v taint poison : Bool) : State :=
  let s := s.modCore fun c => (c.land ⟨.ctl, s.env.ctl + 1⟩ (.pair k ⟨v, taint, poison⟩)).busy (s.env.ctl + 1)
  s.modFocus fun t => t.notePair k

/-- Lands a b register one control cycle after issue (R99, R126). -/
def State.landB (s : State) (n : Fin 4) (v : BitVec 32) : State :=
  s.modCore fun c => (c.land ⟨.ctl, s.env.ctl + 1⟩ (.breg n v)).busy (s.env.ctl + 1)

/-- The address of a load or store: wrap(A + sx(imm6) * size, 64) (R132). -/
def lsAddr (a : Word) (imm : BitVec 6) (size : Nat) : Word := a + sx6 imm * word size

end Sys2Proof.Machine
end

