-- ==== Sys2Proof/Machine/LanternMem.lean ====
section
/-! DEFINITION. Lantern memory (R259, R260, R284, R285): address spaces, and loads, stores and atomics to SRAM, control
space and device VA. Every access is performed at issue but for a store to device VA, which is queued and performed later,
in an order that R260 allows, before a load, an atomic, a release or a FENCE that follows it. -/

namespace Sys2Proof.Machine

/-- Where a Lantern address points (R284). -/
inductive Space where
  | dev (va : Nat)
  | sram (off : Nat)
  | ctl (off : Nat)
  deriving DecidableEq, Repr

/-- The space of n bytes at a Lantern address; none takes 0x0301 (R284). -/
def lanternSpace (a : Word) (n : Nat) : Option Space :=
  let x := a.toNat % 2 ^ 62
  match a.toNat / 2 ^ 62 with
  | 0 => if x + n ≤ 2 ^ 48 then some (.dev x) else none
  | 1 => if x + n ≤ Config.sramSize then some (.sram x) else none
  | 2 => if x + n ≤ 2 ^ 24 then some (.ctl x) else none
  | _ => none

/-- The value that a load delivers (R132). -/
def loadValue (size : Nat) (signed : Bool) (m : Nat) : Word :=
  if signed then BitVec.ofInt 64 (toSigned (8 * size) m) else word m

/-- Whether HOSTATOM has been accepted, without which no atomic acts on a host frame (R387). DEDUCED, log entry 50. -/
def Module.hostAtoms (m : Module) : Bool := m.ready && m.acc.getLsbD 6

/-- Whether an atomic may run at a host frame (R247, R387): ADD and SWAP. -/
def Module.hostAtomOk (m : Module) (op : AtomOp) : Bool := m.hostAtoms && (op == .add || op == .swap)

/-! ## Device accesses -/

/-- Whether two runs of bytes at frames share a byte; a replicated frame shares the bytes of every slice. -/
def placesMeet (p : Place) (n : Nat) (q : Place) (k : Nat) : Bool :=
  if (p.kind == 2) != (q.kind == 2) then false
  else
    let a := if p.kind = 1 ∨ q.kind = 1 then p.addr % 2 ^ 32 else p.addr
    let b := if p.kind = 1 ∨ q.kind = 1 then q.addr % 2 ^ 32 else q.addr
    a < b + k && b < a + n

def DevAccess.overlaps (x y : DevAccess) : Bool := x.pieces.any fun p => y.pieces.any fun q => placesMeet p.1 p.2 q.1 q.2

def DevKind.isStore : DevKind → Bool
  | .store _ _ => true
  | .load _ _ => false

/-- Whether a queued access may end now (R260): a store follows the earlier stores that it overlaps. -/
def mayPerform (earlier : List DevAccess) (x : DevAccess) : Bool :=
  !x.kind.isStore || earlier.all fun y => !(y.kind.isStore && y.overlaps x)

/-- Queues what is left of a device access of the Lantern (R100, R260). -/
def State.queueDev (s : State) (n : Fin 4) (kind : DevKind) (pieces : List (Place × Nat)) : State :=
  s.modLantern n fun l =>
    { l with devOrd := l.devOrd + 1,
             dev := l.dev ++ [⟨kind, pieces, l.devOrd, l.core.seq, s.wcy + s.timing.dev, l.cyc⟩] }

/-- Lands a result of a device access once its data are there, not before its latency (R99, R100). -/
def Lantern.landDev (l : Lantern) (x : DevAccess) (d : SOp) (v : Word) : Lantern :=
  let due : Due := ⟨.ctl, max l.cyc (x.iss + 4)⟩
  let r : SReg := ⟨v, true, false⟩
  { l with core := { l.core with lands := l.core.lands ++ [⟨due, x.seq, .reg d r⟩, ⟨due, x.seq, .reg .l r⟩] } }

/-- Ends a device access (R100, R258): a store reaches its frames, data come back to their register. -/
def State.performDev (s : State) (n : Fin 4) (x : DevAccess) : State :=
  match x.kind with
  | .load d v => s.modLantern n fun l => l.landDev x d v
  | .store size data => s.writePieces x.pieces (leBytes size data.toNat)

/-- Performs the stores that the Lantern has queued, in program order: what a load, an atomic, a release, a FENCE or an
EVSIG finds performed (R260, R301, R302). DEDUCED, log entry 37. -/
def State.drainDev (s : State) (n : Fin 4) : State :=
  let dev := (s.lanterns.get n).dev
  ((dev.filter fun x => x.kind.isStore).foldl (fun s x => s.performDev n x) s).modLantern n fun l =>
    { l with dev := dev.filter fun x => !x.kind.isStore }

/-- What a read that faults has before it: the earlier stores, which stay queued, are performed but count nothing. -/
def State.readyDev (s : State) (n : Fin 4) : State := (s.drainDev n).counted s

/-- A device or host read, performed after the earlier stores; poisoned, uncorrectable or failed data answer none (R285). -/
def State.readDev (s : State) (n : Fin 4) (pieces : List (Place × Nat)) : State × Option (List Byte) :=
  match (s.drainDev n).readPieces pieces with
  | (s1, bs, false) => (s1, some bs)
  | (_, _, true) => (((s.readyDev n).readPieces pieces).1, none)

/-- An atomic at its frame, performed after the earlier stores; poisoned, uncorrectable or failed data answer none. -/
def State.atomDev (s : State) (n : Fin 4) (pieces : List (Place × Nat)) (op : AtomOp) (b expected : Word) : State × Option Word :=
  match pieces with
  | [(p, _)] =>
    match (s.drainDev n).atomPlace p op b expected false with
    | (s1, old, false) => (s1, some old)
    | (_, _, true) => (((s.readyDev n).readPieces pieces).1, none)
  | _ => (s, none)

/-! ## Loads, stores and atomics -/

/-- A fault of an access that has read memory up to the state u: what it counted stays (R349). -/
def State.trapFrom (s u : State) (code : Nat) (a : Word) : State := (s.counted u).takeFault (s.trapAt code a)

/-- The bytes of SRAM at an offset, or 0x0306 for an uncorrectable word (R285). -/
def State.readSram (s : State) (n : Fin 4) (off size : Nat) (a : Word) : Except Trap (List Byte) :=
  let m := (s.lanterns.get n).sram
  if (m.uncorrectables off size).isEmpty then .ok (m.bytes off size) else .error (s.trapAt 0x0306 a)

/-- Writes SRAM bytes; a partial write of an uncorrectable word takes 0x0306 (R285). DEDUCED, log entry 38. -/
def State.writeSram (s : State) (n : Fin 4) (off : Nat) (bs : List Byte) (a : Word) : Except Trap State :=
  let m := (s.lanterns.get n).sram
  let partialBad := (m.uncorrectables off bs.length).any fun w => !(off ≤ 8 * w && 8 * w + 8 ≤ off + bs.length)
  if partialBad then .error (s.trapAt 0x0306 a)
  else .ok (s.modLantern n fun l => { l with sram := l.sram.write off bs false })

/-- A load of a Lantern; `acq` marks LDA, which must be aligned (R260, R302). -/
def lanternLoad (n : Fin 4) (a : Word) (size : Nat) (signed acq : Bool) (d : SOp) (s : State) : Except Trap State :=
  match lanternSpace a size with
  | none => .error (s.trapAt 0x0301 a)
  | some sp =>
    if acq && a.toNat % 8 != 0 then .error (s.trapAt 0x0302 a)
    else
      match sp with
      | .ctl off =>
        if size ≠ 8 ∨ off % 8 ≠ 0 then .error (s.trapAt 0x0302 a)
        else .ok (s.landS d (s.ctlWord off) true false 4 4)
      | .sram off =>
        match s.readSram n off size a with
        | .error t => .error t
        | .ok bs => .ok (s.landS d (loadValue size signed (leNat bs)) true false 4 4)
      | .dev va =>
        match s.piecesVa n va size false with
        | (s1, .error c) => .ok (s.trapFrom s1 c a)
        | (s1, .ok ps) =>
          match s1.readDev n ps with
          | (s2, none) => .ok (s.trapFrom s2 0x0306 a)
          | (s2, some bs) => .ok (s2.queueDev n (.load d (loadValue size signed (leNat bs))) ps)

/-- A store of a Lantern; `rel` marks STL (R260, R302). -/
def lanternStore (n : Fin 4) (a : Word) (size : Nat) (data : Word) (rel : Bool) (s : State) : Except Trap State :=
  match lanternSpace a size with
  | none => .error (s.trapAt 0x0301 a)
  | some sp =>
    if rel && a.toNat % 8 != 0 then .error (s.trapAt 0x0302 a)
    else
      match sp with
      | .ctl off =>
        if size ≠ 8 ∨ off % 8 ≠ 0 then .error (s.trapAt 0x0302 a)
        else .ok ((if rel then s.drainDev n else s).writeCtl (.lantern n) off data)
      | .sram off => (if rel then s.drainDev n else s).writeSram n off (leBytes size data.toNat) a
      | .dev va =>
        match s.piecesVa n va size true with
        | (s1, .error c) => .ok (s.trapFrom s1 c a)
        | (s1, .ok ps) => .ok ((if rel then s1.drainDev n else s1).queueDev n (.store size data) ps)

/-- An ATOM or CAS of a Lantern (R134, R260, R284). -/
def lanternAtom (n : Fin 4) (op : AtomOp) (a b expected : Word) (d : SOp) (s : State) : Except Trap State :=
  match lanternSpace a 8 with
  | none => .error (s.trapAt 0x0301 a)
  | some sp =>
    if a.toNat % 8 ≠ 0 then .error (s.trapAt 0x0302 a)
    else
      match sp with
      | .ctl _ => .error (s.trapAt 0x0304 a)
      | .sram off =>
        match s.readSram n off 8 a with
        | .error t => .error t
        | .ok bs =>
          let old := word (leNat bs)
          match s.writeSram n off (leBytes 8 (atomValue op old b expected).toNat) a with
          | .error t => .error t
          | .ok s1 => .ok (s1.landS d old true false 4 4)
      | .dev va =>
        match s.piecesVa n va 8 true with
        | (s1, .error c) => .ok (s.trapFrom s1 c a)
        | (s1, .ok ps) =>
          if ps.any (fun p => p.1.kind == 2) && !s.mod_.hostAtomOk op then .ok (s.trapFrom s1 0x0304 a)
          else
            match s1.atomDev n ps op b expected with
            | (s2, none) => .ok (s.trapFrom s2 0x0306 a)
            | (s2, some old) => .ok (s2.queueDev n (.load d old) ps)

end Sys2Proof.Machine
end

