-- ==== Sys2Proof/Machine/ScalarMem.lean ====
section
/-! DEFINITION. Loads, stores and atomics of the S class (R131 to R134): on a tile an access to its scratchpad at the
bank cycle, on a Lantern an access to Lantern memory. -/

namespace Sys2Proof.Machine

/-- The bank cycle of an access by the S, V, K, C or L parties: the first reference cycle of the control cycle after
issue (R131). -/
def Env.bankDue (e : Env) : Due := ⟨.ctl, e.ctl + 1⟩

/-- Decides an access of the issuing tile to its access port (R186). -/
def State.pushAccess (s : State) (due : Due) (op : AccOp) : State :=
  let e := s.env
  let slot := s.slot
  s.modFocus fun t => { t with accs := t.accs ++ [⟨due, t.core.seq, slot, e.scy, e.ctl, op⟩] }

/-- The checks of R131 on a tile: a poisoned address, the range, the alignment. -/
def checkAddr (s : State) (a : SReg) (addr : Word) (size : Nat) : Option Trap :=
  if a.poison then some (s.trapAt 0x0306 addr)
  else if Config.spSize < addr.toNat + size then some (s.trapAt 0x0301 addr)
  else if addr.toNat % size ≠ 0 then some (s.trapAt 0x0302 addr)
  else none

/-- Notes a load or atomic that lands in d and l four control cycles after issue (R274, R279). -/
def State.noteLoad (s : State) (d : SOp) : State :=
  let n := s.env.ctl + 4
  (s.modCore fun c => c.busy n).modFocus fun t => t.noteWrites [d, .l]

/-- A load (R132). -/
def loadS (i : Instr) (g : Guard) (d a : SOp) (imm : BitVec 6) (size : Nat) (signed : Bool) (s : State) :
    Host.Outcome State Fault Refusal :=
  issue (useS i (some g) [a] [d]) s fun vs s =>
    let addr := lsAddr (srcAt vs 0).val imm size
    match s.focus with
    | .lantern n => lanternLoad n addr size signed false d s
    | .tile _ =>
      match checkAddr s (srcAt vs 0) addr size with
      | some t => .error t
      | none =>
        .ok ((s.pushAccess s.env.bankDue (.load size signed addr.toNat d)).noteLoad d)

/-- A store (R133); on a tape it records its address register and its data (R271). DEDUCED, log entry 47. -/
def storeS (i : Instr) (g : Guard) (d a : SOp) (imm : BitVec 6) (size : Nat) (s : State) :
    Host.Outcome State Fault Refusal :=
  issue { useS i (some g) [a, d] [] with srcReason := some 0x0008, taped := true } s fun vs s =>
    let addr := lsAddr (srcAt vs 0).val imm size
    match s.focus with
    | .lantern n => lanternStore n addr size (srcAt vs 1).val false s
    | .tile _ =>
      match checkAddr s (srcAt vs 0) addr size with
      | some t => .error t
      | none => .ok (s.pushAccess s.env.bankDue (.store size addr.toNat (srcAt vs 1).val (srcAt vs 1).poison))

/-- An atomic or CAS (R134); either invalidates a tape (R274). -/
def atomS (i : Instr) (g : Guard) (op : AtomOp) (d a b : SOp) (s : State) : Host.Outcome State Fault Refusal :=
  issue { useS i (some g) ([a, b] ++ (if op = .cas then [d] else [])) [d] with always := some 0x0008 } s fun vs s =>
    let addr := (srcAt vs 0).val
    match s.focus with
    | .lantern n => lanternAtom n op addr (srcAt vs 1).val (srcAt vs 2).val d s
    | .tile _ =>
      match checkAddr s (srcAt vs 0) addr 8 with
      | some t => .error t
      | none =>
        .ok ((s.pushAccess s.env.bankDue (.atom op addr.toNat (srcAt vs 1) (srcAt vs 2) d)).noteLoad d)

def execLdB (g : Guard) (d a : SOp) (imm : BitVec 6) (s : State) : Host.Outcome State Fault Refusal :=
  loadS (.ldB g d a imm) g d a imm 1 true s
def execLdH (g : Guard) (d a : SOp) (imm : BitVec 6) (s : State) : Host.Outcome State Fault Refusal :=
  loadS (.ldH g d a imm) g d a imm 2 true s
def execLdW (g : Guard) (d a : SOp) (imm : BitVec 6) (s : State) : Host.Outcome State Fault Refusal :=
  loadS (.ldW g d a imm) g d a imm 4 true s
def execLdD (g : Guard) (d a : SOp) (imm : BitVec 6) (s : State) : Host.Outcome State Fault Refusal :=
  loadS (.ldD g d a imm) g d a imm 8 false s
def execLdBU (g : Guard) (d a : SOp) (imm : BitVec 6) (s : State) : Host.Outcome State Fault Refusal :=
  loadS (.ldBU g d a imm) g d a imm 1 false s
def execLdHU (g : Guard) (d a : SOp) (imm : BitVec 6) (s : State) : Host.Outcome State Fault Refusal :=
  loadS (.ldHU g d a imm) g d a imm 2 false s
def execLdWU (g : Guard) (d a : SOp) (imm : BitVec 6) (s : State) : Host.Outcome State Fault Refusal :=
  loadS (.ldWU g d a imm) g d a imm 4 false s
def execStB (g : Guard) (d a : SOp) (imm : BitVec 6) (s : State) : Host.Outcome State Fault Refusal :=
  storeS (.stB g d a imm) g d a imm 1 s
def execStH (g : Guard) (d a : SOp) (imm : BitVec 6) (s : State) : Host.Outcome State Fault Refusal :=
  storeS (.stH g d a imm) g d a imm 2 s
def execStW (g : Guard) (d a : SOp) (imm : BitVec 6) (s : State) : Host.Outcome State Fault Refusal :=
  storeS (.stW g d a imm) g d a imm 4 s
def execStD (g : Guard) (d a : SOp) (imm : BitVec 6) (s : State) : Host.Outcome State Fault Refusal :=
  storeS (.stD g d a imm) g d a imm 8 s
def execAtomAdd (g : Guard) (d a b : SOp) (s : State) : Host.Outcome State Fault Refusal :=
  atomS (.atomAdd g d a b) g .add d a b s
def execAtomMin (g : Guard) (d a b : SOp) (s : State) : Host.Outcome State Fault Refusal :=
  atomS (.atomMin g d a b) g .min d a b s
def execAtomMax (g : Guard) (d a b : SOp) (s : State) : Host.Outcome State Fault Refusal :=
  atomS (.atomMax g d a b) g .max d a b s
def execAtomAnd (g : Guard) (d a b : SOp) (s : State) : Host.Outcome State Fault Refusal :=
  atomS (.atomAnd g d a b) g .and d a b s
def execAtomOr (g : Guard) (d a b : SOp) (s : State) : Host.Outcome State Fault Refusal :=
  atomS (.atomOr g d a b) g .or d a b s
def execAtomXor (g : Guard) (d a b : SOp) (s : State) : Host.Outcome State Fault Refusal :=
  atomS (.atomXor g d a b) g .xor d a b s
def execAtomSwap (g : Guard) (d a b : SOp) (s : State) : Host.Outcome State Fault Refusal :=
  atomS (.atomSwap g d a b) g .swap d a b s
def execCas (g : Guard) (d a b : SOp) (s : State) : Host.Outcome State Fault Refusal :=
  atomS (.cas g d a b) g .cas d a b s

end Sys2Proof.Machine
end

