-- ==== Sys2Proof/Machine/Addr.lean ====
section
/-! DEFINITION. The K class: address generators, tensor handles, scale registers and masks (R137 to R157). -/

namespace Sys2Proof.Machine

/-- How a K, C or L slot uses registers: tiles only, on tape, every S source control (R97, R98, R147, R241, R271). -/
def useT (i : Instr) (g : Guard) (srcs : List (SOp × Bool)) (dsts : List SOp) : Use :=
  { insn := i, guard := some g, only := some .tile, srcs := srcs, dsts := dsts, guardReason := 0x0001,
    srcReason := some 0x0006, always := none, taped := true }

/-- 0x0104 raised by the contents of an operand at issue: FADDR is the slot's address. -/
def State.badOperand (s : State) : Trap :=
  match s.coreOf s.focus with
  | some c => s.trapAt 0x0104 (word (s.slotAddr c))
  | none => s.trapAt 0x0104 0

/-- Lands an effect on the issuing tile n control cycles after issue. -/
def State.landK (s : State) (n : Nat) (eff : Effect) : State :=
  s.modCore fun c => c.land ⟨.ctl, s.env.ctl + n⟩ eff

/-- Lands a K result in an S destination: two control cycles, taint 1, not in l (R147). -/
def State.landKS (s : State) (d : SOp) (v : Word) (poison : Bool) : State :=
  s.landK 2 (.reg d ⟨v, true, poison⟩)

/-- A K instruction that reads a register of the tile into an S destination. -/
def readK (i : Instr) (g : Guard) (d : SOp) (f : Tile → Word × Bool) (s : State) : Host.Outcome State Fault Refusal :=
  issue (useT i g [] [d]) s fun _ s =>
    match s.focusTile? with
    | none => .ok s
    | some t => .ok (s.landKS d (f t).1 (f t).2)

/-- A K instruction that writes one register of the tile from one S source. -/
def writeK (i : Instr) (g : Guard) (a : SOp) (f : Word → Effect) (s : State) : Host.Outcome State Fault Refusal :=
  issue (useT i g [(a, true)] []) s fun vs s => .ok (s.landK 1 (f (srcAt vs 0).val))

def execKnop (_g : Guard) (s : State) : Host.Outcome State Fault Refusal := issueNop (some .tile) s

/-- AGSET (R148). -/
def execAgset (g : Guard) (n : Fin 16) (p c : SOp) (s : State) : Host.Outcome State Fault Refusal :=
  issue (useT (.agset g n p c) g [(p, true), (c, true)] []) s fun vs s =>
    let pw := (srcAt vs 0).val
    let cw := (srcAt vs 1).val
    if pw.toNat / 2 ^ 24 ≠ 0 ∨ cw.toNat / 2 ^ 24 ≠ 0 then .error s.badOperand
    else .ok (s.landK 1 (.agSet n pw cw))

/-- AGSTR (R148). -/
def execAgstr (g : Guard) (n : Fin 16) (a : SOp) (s : State) : Host.Outcome State Fault Refusal :=
  issue (useT (.agstr g n a) g [(a, true)] []) s fun vs s =>
    let w := (srcAt vs 0).val
    if w.toNat / 2 ^ 48 ≠ 0 then .error s.badOperand else .ok (s.landK 1 (.agStr n w))

/-- AGADD (R149). -/
def execAgadd (g : Guard) (n : Fin 16) (a : SOp) (s : State) : Host.Outcome State Fault Refusal :=
  issue (useT (.agadd g n a) g [(a, true)] []) s fun vs s =>
    match s.focusTile? with
    | none => .ok s
    | some t => .ok (s.landK 1 (.agBase n ((t.gens.get n).base + (srcAt vs 0).val.truncate 22)))

/-- AGBLK (R150). -/
def execAgblk (g : Guard) (n : Fin 16) (w : Fin 4) (s : State) : Host.Outcome State Fault Refusal :=
  issue (useT (.agblk g n w) g [] []) s fun _ s => .ok (s.landK 1 (.agBw n (BitVec.ofNat 2 w.val)))

/-- A generator as AGOUT and AGRD see it in a schedule cycle: without a position that lands in that cycle (R151).
Which landings that leaves out is DEDUCED, log entry 109. -/
def Tile.genAt (t : Tile) (scy : Nat) (n : Fin 16) : Gen :=
  match t.agPrev with
  | some (c, gs) => if c = scy then gs.get n else t.gens.get n
  | none => t.gens.get n

/-- AGOUT (R151). -/
def execAgout (g : Guard) (d : SOp) (n : Fin 16) (s : State) : Host.Outcome State Fault Refusal :=
  readK (.agout g d n) g d (fun t => (BitVec.ofInt 64 (t.genAt s.env.scy n).addr, false)) s

/-- The word of a generator that AGRD selects (R138, R151). -/
def Gen.word (x : Gen) : AgWord → Word
  | .p => x.wordP
  | .c => x.wordC
  | .s => x.wordS
  | .pos => x.wordPos

/-- AGRD (R151). -/
def execAgrd (g : Guard) (d : SOp) (n : Fin 16) (w : AgWord) (s : State) : Host.Outcome State Fault Refusal :=
  readK (.agrd g d n w) g d (fun t => ((t.genAt s.env.scy n).word w, false)) s

/-- HLD (R152). -/
def execHld (g : Guard) (h : Fin 32) (a : SOp) (s : State) : Host.Outcome State Fault Refusal :=
  issue (useT (.hld g h a) g [(a, false)] []) s fun vs s =>
    match checkAddr s (srcAt vs 0) (srcAt vs 0).val 32 with
    | some t => .error t
    | none => .ok (s.pushAccess s.env.bankDue (.hld h (srcAt vs 0).val.toNat))

/-- HST (R152). -/
def execHst (g : Guard) (h : Fin 32) (a : SOp) (s : State) : Host.Outcome State Fault Refusal :=
  issue (useT (.hst g h a) g [(a, false)] []) s fun vs s =>
    match checkAddr s (srcAt vs 0) (srcAt vs 0).val 32 with
    | some t => .error t
    | none =>
      match s.focusTile? with
      | none => .ok s
      | some t =>
        let x := t.handles.get h
        .ok (s.pushAccess s.env.bankDue (.hst (srcAt vs 0).val.toNat x.bits x.poison))

/-- HSETF (R153). -/
def execHsetf (g : Guard) (h : Fin 32) (f : Fin 19) (a : SOp) (s : State) : Host.Outcome State Fault Refusal :=
  writeK (.hsetf g h f a) g a (fun v => .field h f v) s

/-- HGETF (R153). -/
def execHgetf (g : Guard) (d : SOp) (f : Fin 19) (h : Fin 32) (s : State) : Host.Outcome State Fault Refusal :=
  readK (.hgetf g d f h) g d (fun t => (word (hGet (t.handles.get h).bits f), (t.handles.get h).poison)) s

/-- SCL (R154). -/
def execScl (g : Guard) (k : Fin 4) (a : SOp) (s : State) : Host.Outcome State Fault Refusal :=
  issue (useT (.scl g k a) g [(a, false)] []) s fun vs s =>
    let v := srcAt vs 0
    if v.poison then .error (s.trapAt 0x0306 v.val)
    else if Config.spSize < v.val.toNat + 256 then .error (s.trapAt 0x0301 v.val)
    else if v.val.toNat % 32 ≠ 0 then .error (s.trapAt 0x0302 v.val)
    else .ok (s.pushAccess s.env.bankDue (.scl k v.val.toNat))

/-- YMSET, XMSET and VMSET (R155). -/
def execYmset (g : Guard) (n : Fin 4) (a : SOp) (s : State) : Host.Outcome State Fault Refusal :=
  writeK (.ymset g n a) g a (fun v => .ym n (v.truncate 32)) s
def execXmset (g : Guard) (n : Fin 4) (a : SOp) (s : State) : Host.Outcome State Fault Refusal :=
  writeK (.xmset g n a) g a (fun v => .xm n (v.truncate 32)) s
def execVmset (g : Guard) (n : Fin 8) (a : SOp) (s : State) : Host.Outcome State Fault Refusal :=
  writeK (.vmset g n a) g a (fun v => .vmask n v) s

/-- VMGET and MKGET (R156). -/
def execVmget (g : Guard) (d : SOp) (n : Fin 8) (s : State) : Host.Outcome State Fault Refusal :=
  readK (.vmget g d n) g d (fun t => (if n = 0 then BitVec.allOnes 64 else t.vm.get n, false)) s
def execMkget (g : Guard) (d : SOp) (n : Fin 8) (s : State) : Host.Outcome State Fault Refusal :=
  readK (.mkget g d n) g d (fun t =>
    let k : Fin 4 := Fin.ofNat 4 n.val
    ((if n.val < 4 then t.ym.get k else t.xm.get k).zeroExtend 64, false)) s

end Sys2Proof.Machine
end

