-- ==== Sys2Proof/Machine/PlaneArray.lean ====
section
/-! DEFINITION. The plane array (R80 to R84, R144, R160 to R168): pair order and slices, the partial sums of a step,
and the residue check with its discards and clamps. -/

namespace Sys2Proof.Machine

/-! ## Pair order and slices (R161) -/

/-- The pairs of planes of one K-step in the order of R161: by key descending, then by i descending. -/
def pairOrder (pa pb : Nat) (sa sb : Bool) : List (Nat × Nat) :=
  let isSign (i j : Nat) : Bool := (sa && i + 1 == pa) || (sb && j + 1 == pb)
  let key (i j : Nat) : Nat := if isSign i j then 15 else i + j
  ((List.range 16).reverse.map fun k =>
    ((List.range pa).reverse.flatMap fun i => (List.range pb).reverse.map fun j => (i, j)).filter
      fun p => key p.1 p.2 == k).flatten

/-- Matrix cycles per K-step when three or more pairs run (R161). -/
def stepCycles (n : Nat) : Nat := if n ≤ 2 then 1 else (n + 3) / 4

/-- K-steps that one matrix cycle takes in. -/
def groupSteps (n : Nat) : Nat := if n = 2 then 2 else if n = 1 then 4 else 1

/-- The slice of the pair at position p of step j (R161). -/
def sliceOf (n j p : Nat) : Nat :=
  if n = 1 then 3 - j % 4
  else if n = 2 then 3 - 2 * (j % 2) - p
  else 3 - p / stepCycles n

/-- The slices that a fidelity level dims (R165). -/
def dimSlices (level : Nat) : List Nat := if level = 0 then [] else if level ≤ 3 then [0] else [0, 1]

/-- Whether a level would put a pair that holds a sign plane on a slice that it dims, of the steps that run (R166).
DEDUCED, log entry 98. -/
def signOnDim (pa pb : Nat) (sa sb : Bool) (steps level : Nat) : Bool :=
  let n := pa * pb
  let ps := pairOrder pa pb sa sb
  let js := List.range (min steps (groupSteps n))
  ps.zipIdx.any fun x =>
    ((sa && x.1.1 + 1 == pa) || (sb && x.1.2 + 1 == pb)) && js.any fun j => (dimSlices level).contains (sliceOf n j x.2)

/-! ## Blocks and scales (R83, R84, R144) -/

/-- Block width of a handle in elements. -/
def blockW (h : BitVec 256) : Nat := 8 * 2 ^ hBwc h

/-- The block that holds element (r, k) of an operand tile and step (R83). -/
def blockIx (w r k : Nat) : Nat := (r % 32) / (64 / w) * (64 / w) + k % 64 / w

/-- A block exponent; none is a zero block (R84). -/
def scaleExp (x : Nat) : Option Int := if x % 256 = 128 then none else some (toSigned 8 x)

/-- Byte n of a scale register and the poison of its group. -/
def Scale.byte (x : Scale) (n : Nat) : Nat × Bool := (x.bytes.toNat / 256 ^ n % 256, x.poison.getLsbD (n / 8))

/-- The scale of block b of step j for operand A or B (R144): exponent and poison; kn1 reads no register. -/
def Tile.stepScale (t : Tile) (isB scaled : Bool) (j b : Nat) : Option Int × Bool :=
  if !scaled then (some 0, false)
  else
    let k : Fin 4 := Fin.ofNat 4 ((if isB then 2 else 0) + j / 8 % 2)
    let x := (t.scales.get k).byte (32 * (j % 8) + b)
    (scaleExp x.1, x.2)

/-! ## One step of products -/

/-- The geometry of an operand: planes, signedness, block width. -/
structure PlaneGeo where
  planes : Nat
  signed : Bool
  w : Nat

/-- The weight of plane i (R82). -/
def planeWeight (g : PlaneGeo) (i : Nat) : Int := if g.signed && i + 1 == g.planes then -(2 ^ i : Nat) else (2 ^ i : Nat)

/-- The segments of a step on which both block exponents are constant: first element, block exponents. -/
def segments (ga gb : PlaneGeo) (a b : PlaneRow) : List (Nat × Nat × Option Int × Option Int) :=
  let w := min ga.w gb.w
  (List.range (64 / w)).map fun i =>
    (i * w, w, ((a.exps.getD (i * w / ga.w) (none, false)).1), ((b.exps.getD (i * w / gb.w) (none, false)).1))

/-- The sum of the products of some pairs of planes of one output in one step, in units of 2^-256 (R160, R88). -/
def pairSum (ga gb : PlaneGeo) (a b : PlaneRow) (ps : List (Nat × Nat)) : Int :=
  (segments ga gb a b).foldl (fun acc s =>
    match s.2.2.1, s.2.2.2 with
    | some ea, some eb =>
      acc + (ps.foldl (fun (x : Int) p =>
        let bits := Nat.land (bitsOf (a.words.getD p.1 0) s.1 s.2.1) (bitsOf (b.words.getD p.2 0) s.1 s.2.1)
        x + planeWeight ga p.1 * planeWeight gb p.2 * (popCount s.2.1 bits : Nat)) 0) * (2 ^ (ea + eb + 256).toNat : Nat)
    | _, _ => acc) 0

/-- Ds of R168: the largest value of some pairs in one step, with every plane bit 1. -/
def pairMax (ga gb : PlaneGeo) (a b : PlaneRow) (ps : List (Nat × Nat)) : Int :=
  (segments ga gb a b).foldl (fun acc s =>
    match s.2.2.1, s.2.2.2 with
    | some ea, some eb =>
      acc + ((ps.foldl (fun x p => x + 2 ^ (p.1 + p.2) * s.2.1) 0) * 2 ^ (ea + eb + 256).toNat : Nat)
    | _, _ => acc) 0

/-- What the residue check makes of a corrupted partial (R167, R168): the amount added, whether the output is
poisoned, the discards, and whether a mismatch is observed. A partial of a dim slice adds a value in [0, Ds] or is
discarded and counted, which is what R170 bounds. -/
def residueOutcome (dim : Bool) (correct formed ds : Int) : Int × Bool × Nat × Bool :=
  let wrong : Bool := (formed - correct) % 7 != 0
  if wrong then (if dim then (0, false, 1, true) else (formed, true, 0, true))
  else if dim then (satInt formed 0 ds, false, 0, false)
  else (formed, false, 0, false)

/-- The order in which FADDR names the first of several mismatches: set, slice, r, c (R167). -/
def residueRank (e : Residue) : Nat := ((e.z.val * 4 + e.slice.val) * 32 + e.row.val) * 32 + e.col.val

/-- FADDR of a bright mismatch (R167). -/
def residueFaddr (e : Residue) : Word :=
  word (2 ^ 63 + e.z.val * 4096 + e.slice.val * 1024 + e.row.val * 32 + e.col.val)

/-- The corruption of each slice's partial, one for a slice: the array forms one P (R167). -/
def sliceErrs (errs : List Residue) : List Residue :=
  (List.finRange 4).filterMap fun s => errs.find? fun e => e.slice == s

/-- One step of one output: the contribution, given the corruptions that strike it; and the corruptions whose mismatch
is observed (R160, R167, R168). With none the contribution is exact at every level, so that results depend on the level
through discards and undetected errors alone (R170, R172). -/
def outputStep (ga gb : PlaneGeo) (a b : PlaneRow) (idx j level : Nat) (errs : List Residue) :
    Contrib × List Residue :=
  let n := ga.planes * gb.planes
  let ps := pairOrder ga.planes gb.planes ga.signed gb.signed
  let exact := pairSum ga gb a b ps
  let psn := a.bad || b.bad || a.exps.any (·.2) || b.exps.any (·.2)
  (sliceErrs errs).foldl (fun (acc : Contrib × List Residue) e =>
    let own := (ps.zipIdx.filter fun x => sliceOf n j x.2 == e.slice.val).map (·.1)
    let correct := pairSum ga gb a b own
    let r := residueOutcome ((dimSlices level).contains e.slice.val) correct e.formed (pairMax ga gb a b own)
    ({ acc.1 with amount := acc.1.amount - correct + r.1, psn := acc.1.psn || r.2.1, disc := acc.1.disc + r.2.2.1 },
      if r.2.2.2 then acc.2 ++ [e] else acc.2)) (⟨idx, exact, psn, 0⟩, [])

/-! ## Accumulator sets (R158) -/

def AccSet.cell (s : AccSet) (i : Nat) : AccCell := lookupKey .reset s.cells i

def AccSet.setCell (s : AccSet) (i : Nat) (x : AccCell) : AccSet := { s with cells := setKey .reset s.cells i x }

/-- Adds one contribution, exactly modulo 2^576, which the sums that R171 and R172 speak of rest on; DCNT saturates
(R88, R158, R167). -/
def AccSet.add (s : AccSet) (c : Contrib) : AccSet :=
  let x := s.cell c.idx
  s.setCell c.idx ⟨x.acc + BitVec.ofInt 576 c.amount, x.psn || c.psn, min (x.dcnt + c.disc) 127⟩

/-- Adds every contribution of a landing. -/
def AccSet.addAll (s : AccSet) (cs : List Contrib) : AccSet := cs.foldl AccSet.add s

end Sys2Proof.Machine
end

