-- ==== Sys2Proof/Machine/Matrix.lean ====
section
/-! DEFINITION. The M class (R163, R173 to R182): the checks at issue, the timeline that an issue decides, and what
each of its cycles does to the accumulator sets and the scratchpad. -/

namespace Sys2Proof.Machine

/-! ## Checks -/

/-- A fault of an M instruction's checks at a handle: FADDR is BASE (R142, R173). -/
def hFault (slot code : Nat) (h : BitVec 256) : Option Trap := some ⟨code, word (hBase h), slot⟩

/-- The first of several checks that fails. -/
def firstFault : List (Option Trap) → Option Trap
  | [] => none
  | some t :: _ => some t
  | none :: rest => firstFault rest

/-- The common handle checks (R142). -/
def checkHandle (slot : Nat) (x : Handle) : Option Trap :=
  let h := x.bits
  if x.poison then hFault slot 0x0306 h
  else if hReserved h || !fmtListed (hFmt h) then hFault slot 0x0404 h
  else if hRows h = 0 ∨ hCols h = 0 then hFault slot 0x0404 h
  else if hBase h % 64 ≠ 0 then hFault slot 0x0302 h
  else none

/-- A range check: the last byte must lie in scratchpad; FADDR is that byte (R173, R174). -/
def checkLast (slot last : Nat) : Option Trap := if Config.spSize ≤ last then some ⟨0x0301, word last, slot⟩ else none

/-- The checks of a plane operand (R174); `exact` demands the native plane count (MPACK). -/
def checkPlane (slot : Nat) (h : BitVec 256) (steps : Nat) (exact : Bool) : Option Trap :=
  match planeFmt (hFmt h) with
  | none => hFault slot 0x0404 h
  | some f =>
    let tall := 64 / blockW h
    if f.planes < hPlanes h || hSigned h != f.signed || (exact && hPlanes h != f.planes) then hFault slot 0x0402 h
    else if hTru h then hFault slot 0x0401 h
    else if hCols h % 64 ≠ 0 ∨ hCols h < 64 * steps ∨ hRows h % tall ≠ 0 then hFault slot 0x0404 h
    else if hRstr h % 8 ≠ 0 ∨ hPstr h % 8 ≠ 0 then hFault slot 0x0302 h
    else checkLast slot
      (hBase h + (min (hRows h) 32 - 1) * hRstr h + (steps - 1) * hPstr h + 8 * (hPlanes h - 1) + 7)

/-- The geometry of a plane handle. -/
def geoOf (h : BitVec 256) : PlaneGeo := ⟨hPlanes h, hSigned h, blockW h⟩

/-- R166 for two handles at the level in force and a pending one; FADDR is the BASE of hA. DEDUCED, log entry 99. -/
def checkSign (slot : Nat) (ha hb : BitVec 256) (steps : Nat) (levels : List Nat) : Option Trap :=
  if levels.any (signOnDim (hPlanes ha) (hPlanes hb) (hSigned ha) (hSigned hb) steps) then hFault slot 0x0402 ha
  else none

/-- R159: STEPC would pass 2^24; FADDR is the BASE of hA. DEDUCED, log entry 99. -/
def checkSteps (slot : Nat) (ha : BitVec 256) (now add : Nat) : Option Trap :=
  if 2 ^ 24 < now + add then hFault slot 0x0403 ha else none

/-- The checks of MMUL and MMULB in order (R176, R177). -/
def checkMul (slot : Nat) (a b : Handle) (steps : Nat) (levels : List Nat) (stepc : Nat) : Option Trap :=
  firstFault [checkHandle slot a, checkHandle slot b, checkPlane slot a.bits steps false,
    checkPlane slot b.bits steps false, checkSign slot a.bits b.bits steps levels,
    checkSteps slot a.bits stepc (64 * steps)]

/-- The checks of MOUT (R178), MOUTR and MADDR (R179), MSTAT (R181). -/
def checkOut (slot : Nat) (x : Handle) : Option Trap :=
  match checkHandle slot x with
  | some t => some t
  | none =>
    let h := x.bits
    match elemFmt (hFmt h) with
    | none => hFault slot 0x0404 h
    | some f =>
      if hRstr h % f.bytes ≠ 0 then hFault slot 0x0302 h
      else checkLast slot (hBase h + 31 * hRstr h + 32 * f.bytes - 1)

def checkRaw (slot : Nat) (x : Handle) : Option Trap :=
  match checkHandle slot x with
  | some t => some t
  | none =>
    let h := x.bits
    if hFmt h ≠ 0x20 then hFault slot 0x0404 h
    else if hRstr h % 8 ≠ 0 then hFault slot 0x0302 h
    else checkLast slot (hBase h + 31 * hRstr h + 2303)

def checkStat (slot : Nat) (x : Handle) : Option Trap :=
  match checkHandle slot x with
  | some t => some t
  | none =>
    let h := x.bits
    if hFmt h ≠ 1 ∨ hRows h < 33 ∨ hCols h < 32 then hFault slot 0x0404 h
    else checkLast slot (hBase h + 32 * hRstr h + 31)

/-- Rows that MPACK and MUNPK cover, and the blocks of one step over them (R180). -/
def packRows (hp : BitVec 256) : Nat := min 32 (hRows hp)
def packBlocks (hp : BitVec 256) : Nat := packRows hp / (64 / blockW hp) * (64 / blockW hp)

/-- The checks of MPACK and MUNPK (R180): the common checks of both handles in the order named, the element handle's,
the plane handle's, and the range of the scale array. -/
def checkPack (slot : Nat) (first second hp he : Handle) (steps : Nat) (pack : Bool) : Option Trap :=
  let e := he.bits
  let p := hp.bits
  let elemChecks : Option Trap :=
    match elemFmt (hFmt e) with
    | none => hFault slot 0x0404 e
    | some f =>
      if hCols e < 64 * steps then hFault slot 0x0404 e
      else if hRstr e % f.bytes ≠ 0 then hFault slot 0x0302 e
      else
        let rows := if pack then min (packRows p) (hRows e) else packRows p
        checkLast slot (hBase e + (rows - 1) * hRstr e + 64 * steps * f.bytes - 1)
  let scaleChecks : Option Trap :=
    match planeFmt (hFmt p) with
    | some f => if f.scaled then checkLast slot (hSbase p + (steps - 1) * 32 + packBlocks p - 1) else none
    | none => none
  firstFault [checkHandle slot first, checkHandle slot second, elemChecks, checkPlane slot p steps pack, scaleChecks]

/-! ## Issue -/

/-- The paths of the M slot (R163). -/
def pathArray : Fin 3 := 0
def pathOutput : Fin 3 := 1
def pathConvert : Fin 3 := 2

/-- The levels that an MMUL is checked against: the one in force and a pending one (R166). -/
def State.mulLevels (s : State) (t : Tile) : List Nat :=
  (s.cluster t).fid :: (match t.pendFid with
    | some (l, _) => [l]
    | none => [])

/-- A task of the instruction at matrix cycle n of its timeline. -/
def MCtx.task (c : MCtx) (n : Nat) (act : MAct) : MTask := ⟨⟨.mat, c.base + n⟩, c.seq, act⟩

/-- Takes a path: its timeline starts after the last working cycle of the path's preceding instruction (R163). -/
def Tile.startM (t : Tile) (path : Fin 3) (c : MCtx) (last : Nat) (tasks : List MTask) : Tile :=
  { t with mctx := t.mctx ++ [c], mtasks := t.mtasks ++ tasks, mbusy := t.mbusy.set path (c.base + last) }

/-- DEDUCED, log entry 27. -/
def Tile.baseOf (t : Tile) (path : Fin 3) (now : Nat) : Nat := max now (t.mbusy.get path)

/-- The latched context of an instruction that issues. -/
def mctxOf (i : Instr) (s : State) (t : Tile) (path : Fin 3) (z : Fin 2) (pair : Fin 4) (a b : BitVec 256)
    (steps : Nat) : MCtx :=
  { op := i, seq := t.core.seq, slot := s.slot, z := z, ha := a, hb := b, ym := t.ym.get pair, xm := t.xm.get pair,
    frm := RMode.ofCode t.frm.toNat, base := t.baseOf path s.env.mat, steps := steps, iss := s.env.scy, prefix_ := 0,
    group := 0, counts := [], badGroups := [] }

/-- The fetches of a multiplication, each with the cycle in which its contribution lands (R163). -/
def MCtx.fetches (c : MCtx) : List MTask :=
  let n := hPlanes c.ha * hPlanes c.hb
  if n ≤ 2 then
    let k := groupSteps n
    (List.range ((c.steps + k - 1) / k)).map fun g =>
      c.task (c.prefix_ + 1 + g)
        (.fetch ((List.range k).map (fun u => g * k + u) |>.filter (· < c.steps)) (c.prefix_ + g + 5))
  else
    let w := stepCycles n
    (List.range c.steps).map fun j =>
      c.task (c.prefix_ + 1 + j * w) (.fetch [j] (c.prefix_ + (j + 2) * w + 3))

/-- The last working cycle of a multiplication (R163). -/
def MCtx.mulLast (c : MCtx) : Nat :=
  let n := hPlanes c.ha * hPlanes c.hb
  let k := groupSteps n
  c.prefix_ + (if n ≤ 2 then (c.steps + k - 1) / k + 1 else (c.steps + 1) * stepCycles n)

/-- The issue of an M instruction on a tile. -/
def issueM (i : Instr) (g : Guard) (s : State) (body : State → Tile → Except Trap State) :
    Host.Outcome State Fault Refusal :=
  issue (useT i g [] []) s fun _ s =>
    match s.focusTile? with
    | none => .ok s
    | some t => body s t

def execMnop (_g : Guard) (s : State) : Host.Outcome State Fault Refusal := issueNop (some .tile) s

/-- MCLR (R175): the clear lands at matrix cycle 1. -/
def execMclr (g : Guard) (z : Fin 2) (s : State) : Host.Outcome State Fault Refusal :=
  issueM (.mclr g z) g s fun s t =>
    .ok (s.modFocus fun x => { x with mtasks := x.mtasks ++ [⟨⟨.mat, s.env.mat + 1⟩, t.core.seq, .clear z⟩] })

/-- Counts the K-elements that an instruction takes in, at its issue (R158). -/
def Tile.addSteps (t : Tile) (z : Fin 2) (n : Nat) : Tile :=
  { t with acc := t.acc.set z { t.acc.get z with stepc := (t.acc.get z).stepc + n } }

/-- MMUL (R176). -/
def execMmul (g : Guard) (z : Fin 2) (pair : Fin 4) (ha hb n : Fin 32) (s : State) :
    Host.Outcome State Fault Refusal :=
  issueM (.mmul g z pair ha hb n) g s fun s t =>
    let a := t.handles.get ha
    let b := t.handles.get hb
    let steps := n.val + 1
    match checkMul s.slot a b steps (s.mulLevels t) (t.acc.get z).stepc with
    | some f => .error f
    | none =>
      let c := mctxOf (.mmul g z pair ha hb n) s t pathArray z pair a.bits b.bits steps
      .ok (s.modFocus fun x => (x.addSteps z (64 * steps)).startM pathArray c c.mulLast c.fetches)

def groupRows : GroupSize → Nat
  | .g4 => 4
  | .g8 => 8
  | .g16 => 16

/-- MMULB (R177): the counts are read one reference cycle after another from issue on. DEDUCED, log entry 26. -/
def execMmulb (g : Guard) (z : Fin 2) (grp : GroupSize) (ha hb : Fin 32) (n : Fin 16) (s : State) :
    Host.Outcome State Fault Refusal :=
  issueM (.mmulb g z grp ha hb n) g s fun s t =>
    let a := t.handles.get ha
    let b := t.handles.get hb
    let steps := hCols a.bits / 64
    match checkMul s.slot a b steps (s.mulLevels t) (t.acc.get z).stepc with
    | some f => .error f
    | none =>
      let rows := groupRows grp
      let groups := 32 / rows
      let gen := t.gens.get n
      let c := { mctxOf (.mmulb g z grp ha hb n) s t pathArray z 0 a.bits b.bits steps with
        prefix_ := (groups + s.env.dm - 1) / s.env.dm, group := rows }
      let reads := (gen.addrs groups).zipIdx.map fun x =>
        (⟨⟨.ref, s.env.scy + x.2 + 1⟩, c.seq, .count x.2 (toRaw 64 x.1)⟩ : MTask)
      let s1 := s.modFocus fun x => (x.addSteps z (64 * steps)).startM pathArray c c.mulLast (reads ++ c.fetches)
      .ok (s1.landK 1 (.agPos n (gen.steps groups).ii (gen.steps groups).oi))

/-- MOUT (R178). -/
def execMout (g : Guard) (z : Fin 2) (pair : Fin 4) (h : Fin 32) (s : State) : Host.Outcome State Fault Refusal :=
  issueM (.mout g z pair h) g s fun s t =>
    match checkOut s.slot (t.handles.get h) with
    | some f => .error f
    | none =>
      let c := mctxOf (.mout g z pair h) s t pathOutput z pair (t.handles.get h).bits 0 0
      .ok (s.modFocus fun x => x.startM pathOutput c 9 [c.task 1 .readSet])

/-- MOUTR (R179). -/
def execMoutr (g : Guard) (z : Fin 2) (pair : Fin 4) (h : Fin 32) (s : State) : Host.Outcome State Fault Refusal :=
  issueM (.moutr g z pair h) g s fun s t =>
    match checkRaw s.slot (t.handles.get h) with
    | some f => .error f
    | none =>
      let c := mctxOf (.moutr g z pair h) s t pathOutput z pair (t.handles.get h).bits 0 0
      .ok (s.modFocus fun x => x.startM pathOutput c 289 [c.task 1 .readSet])

/-- MADDR (R179). -/
def execMaddr (g : Guard) (z : Fin 2) (pair : Fin 4) (h : Fin 32) (s : State) : Host.Outcome State Fault Refusal :=
  issueM (.maddr g z pair h) g s fun s t =>
    match checkRaw s.slot (t.handles.get h) with
    | some f => .error f
    | none =>
      let c := mctxOf (.maddr g z pair h) s t pathArray z pair (t.handles.get h).bits 0 0
      .ok (s.modFocus fun x =>
        x.startM pathArray c 288 ((List.range 32).map fun r => c.task (1 + 9 * r) (.rawRow r)))

/-- MPACK (R180). -/
def execMpack (g : Guard) (hp he n : Fin 32) (s : State) : Host.Outcome State Fault Refusal :=
  issueM (.mpack g hp he n) g s fun s t =>
    let p := t.handles.get hp
    let e := t.handles.get he
    let steps := n.val + 1
    match checkPack s.slot p e p e steps true with
    | some f => .error f
    | none =>
      let c := mctxOf (.mpack g hp he n) s t pathConvert 0 0 p.bits e.bits steps
      .ok (s.modFocus fun x =>
        x.startM pathConvert c (4 * steps) ((List.range steps).map fun j => c.task (1 + 4 * j) (.pack j)))

/-- MUNPK (R180). -/
def execMunpk (g : Guard) (he hp n : Fin 32) (s : State) : Host.Outcome State Fault Refusal :=
  issueM (.munpk g he hp n) g s fun s t =>
    let p := t.handles.get hp
    let e := t.handles.get he
    let steps := n.val + 1
    match checkPack s.slot e p p e steps false with
    | some f => .error f
    | none =>
      let c := mctxOf (.munpk g he hp n) s t pathConvert 0 0 e.bits p.bits steps
      .ok (s.modFocus fun x =>
        x.startM pathConvert c (4 * steps) ((List.range steps).map fun j => c.task (1 + 4 * j) (.unpack j)))

/-- MSTAT (R181). -/
def execMstat (g : Guard) (z : Fin 2) (h : Fin 32) (s : State) : Host.Outcome State Fault Refusal :=
  issueM (.mstat g z h) g s fun s t =>
    match checkStat s.slot (t.handles.get h) with
    | some f => .error f
    | none =>
      let c := mctxOf (.mstat g z h) s t pathOutput z 0 (t.handles.get h).bits 0 0
      .ok (s.modFocus fun x => x.startM pathOutput c 10 [c.task 1 .readSet])

/-! ## Matrix cycles -/

/-- The plane words of one row at one step (R81), read through the matrix port. -/
def State.planeRow (s : State) (i : Nat) (c : MCtx) (h : BitVec 256) (isB : Bool) (r j : Nat) : State × PlaneRow :=
  let a := hBase h + r * hRstr h + j * hPstr h
  let (s1, bs, bad) := s.spRead i a (8 * hPlanes h) c.slot c.iss
  let words := (List.range (hPlanes h)).map fun b => leNat ((bs.drop (8 * b)).take 8)
  let scaled := match planeFmt (hFmt h) with
    | some f => f.scaled
    | none => false
  let exps := match s1.tile? i with
    | some t => (List.range (64 / blockW h)).map fun x =>
        t.stepScale isB scaled j (blockIx (blockW h) r (x * blockW h))
    | none => []
  (s1, ⟨words, bad, exps⟩)

/-- The rows of an operand at one step. -/
def State.planeRows (s : State) (i : Nat) (c : MCtx) (h : BitVec 256) (isB : Bool) (j : Nat) :
    State × List PlaneRow :=
  (List.range (min (hRows h) 32)).foldl (fun (acc : State × List PlaneRow) r =>
    let (s1, x) := acc.1.planeRow i c h isB r j
    (s1, acc.2 ++ [x])) (s, [])

/-- Whether an output is enabled for a step (R160, R177). -/
def MCtx.enabled (c : MCtx) (r col j : Nat) : Bool :=
  c.ym.getLsbD r && c.xm.getLsbD col &&
    (c.group == 0 || (r / c.group == col / c.group && decide (j < lookupKey c.steps c.counts (r / c.group))))

/-- The outputs that a step feeds. -/
def MCtx.outputs (c : MCtx) (j : Nat) : List (Nat × Nat) :=
  (List.range (min (hRows c.ha) 32)).flatMap fun r =>
    ((List.range (min (hRows c.hb) 32)).filter fun col => c.enabled r col j).map fun col => (r, col)

/-- Takes the corruptions that strike a step of a set out of the tile (R167). -/
def Tile.takeResidues (t : Tile) (z : Fin 2) (j : Nat) : List Residue × Tile :=
  (t.residues.filter fun e => e.z == z && e.step == j,
    { t with residues := t.residues.filter fun e => !(e.z == z && e.step == j) })

/-- Counts the observed mismatches of a step and defers the fault of the first bright one (R167). -/
def State.countMismatches (s : State) (i : Nat) (c : MCtx) (level : Nat) (es : List Residue) : State :=
  let s1 := es.foldl (fun s e => s.modTile i fun t =>
    { t with slerr := t.slerr.set e.slice (min (t.slerr.get e.slice + 1) 0xFFFF_FFFF) }) s
  let bright := es.filter fun e => !(dimSlices level).contains e.slice.val
  let first := bright.foldl (fun (m : Option Residue) e =>
    match m with
    | some x => if residueRank e < residueRank x then some e else some x
    | none => some e) none
  match first with
  | some e => s1.deferFault i 0x0306 (residueFaddr e) c.slot c.iss
  | none => s1

/-- The fetch of one step of a multiplication: plane words and scales, and the level in force (R160, R163, R183). -/
def State.fetchStep (s : State) (i : Nat) (c : MCtx) (j : Nat) : State × List StepData :=
  let (s1, as_) := s.planeRows i c c.ha false j
  let (s2, bs) := s1.planeRows i c c.hb true j
  match s2.tile? i with
  | none => (s2, [])
  | some t =>
    let (errs, t1) := t.takeResidues c.z j
    (s2.setTile i t1, [⟨j, (s2.tileEnv t).scy, (s2.cluster t).fid, as_, bs, errs⟩])

def PlaneRow.none : PlaneRow := ⟨[], false, []⟩

/-- The contributions of a fetched step, output by output, each with the corruptions whose mismatch is observed (R160,
R167). -/
def MCtx.contribs (c : MCtx) (d : StepData) : List (Contrib × List Residue) :=
  (c.outputs d.step).map fun p =>
    outputStep (geoOf c.ha) (geoOf c.hb) (d.a.getD p.1 .none) (d.b.getD p.2 .none) (32 * p.1 + p.2) d.step d.level
      (d.errs.filter fun e => e.row.val == p.1 && e.col.val == p.2)

/-- The marks that uncorrectable count words put on every output of their groups (R177). DEDUCED, log entry 97. -/
def MCtx.spoiled (c : MCtx) : List Contrib :=
  c.badGroups.flatMap fun q => (List.range c.group).flatMap fun r => (List.range c.group).map fun col =>
    ⟨32 * (q * c.group + r) + (q * c.group + col), 0, true, 0⟩

/-- A fetched step lands: products and residue check give what it adds, and mismatches are counted and recorded then (R163,
R167). DEDUCED, log entry 28. -/
def State.landStep (s : State) (i : Nat) (c : MCtx) (d : StepData) : State :=
  let rs := c.contribs d
  (s.modTile i fun t => { t with acc := t.acc.set c.z ((t.acc.get c.z).addAll (rs.map (·.1) ++ c.spoiled)) }).countMismatches i c
    d.level (rs.flatMap (·.2))

/-- Rows 4u to 4u + 3 of the output of MOUT, with their flags (R178). -/
def moutRows (c : MCtx) (t : Tile) (f : EFmt) (u : Nat) : List LineWrite × FFlags :=
  let rows := ((List.range 4).map (4 * u + ·)).filter fun r => c.ym.getLsbD r
  let set := t.acc.get c.z
  let out (r col : Nat) : Nat × FFlags := roundOut f (hOrnd c.ha) c.frm (set.cell (32 * r + col)).acc.toInt (-256)
  let cols := (List.range 32).filter fun col => c.xm.getLsbD col
  (rows.map fun r =>
    let cells := (List.range 32).map fun col =>
      if c.xm.getLsbD col then some ((out r col).1, (set.cell (32 * r + col)).psn) else none
    ⟨hBase c.ha + r * hRstr c.ha, cells.flatMap fun x => match x with
        | some (v, _) => (leBytes f.bytes v).map some
        | none => List.replicate f.bytes none,
      cells.flatMap fun x => match x with
        | some (_, p) => List.replicate f.bytes p
        | none => List.replicate f.bytes false⟩,
    orFlags (rows.flatMap fun r => cols.map fun col => (out r col).2))

/-- Row r of the raw output of MOUTR (R179). -/
def moutrRow (c : MCtx) (t : Tile) (r : Nat) : LineWrite :=
  let set := t.acc.get c.z
  let cells := (List.range 32).map fun col =>
    if c.ym.getLsbD r && c.xm.getLsbD col then
      let x := set.cell (32 * r + col)
      ((leBytes 72 x.acc.toNat).map some, List.replicate 72 x.psn)
    else (List.replicate 72 none, List.replicate 72 false)
  ⟨hBase c.ha + r * hRstr c.ha, cells.flatMap (·.1), cells.flatMap (·.2)⟩

/-- A row of the bytes of MSTAT, and its summary (R181). -/
def mstatRow (c : MCtx) (t : Tile) (r : Nat) : LineWrite :=
  let set := t.acc.get c.z
  LineWrite.plain (hBase c.ha + r * hRstr c.ha)
    ((List.range 32).map fun col =>
      let x := set.cell (32 * r + col)
      BitVec.ofNat 8 (boolNat' x.psn 128 + x.dcnt % 128)) false
where boolNat' (b : Bool) (n : Nat) : Nat := if b then n else 0

def mstatSummary (c : MCtx) (t : Tile) (fid : Nat) : LineWrite :=
  let set := t.acc.get c.z
  LineWrite.plain (hBase c.ha + 32 * hRstr c.ha)
    (leBytes 8 set.stepc ++ leBytes 8 ((set.cells.map fun x => x.2.dcnt).sum) ++
      leBytes 8 (set.cells.filter fun x => x.2.psn).length ++ leBytes 1 fid ++ leBytes 7 0) false

/-- Adds tasks of an instruction to the tile. -/
def Tile.addTasks (t : Tile) (ts : List MTask) : Tile := { t with mtasks := t.mtasks ++ ts }

/-- Lands flags at a matrix cycle of the instruction (R79). -/
def Tile.landFlags (t : Tile) (c : MCtx) (n : Nat) (f : FFlags) : Tile :=
  if f = 0 then t
  else { t with core := { t.core with lands := t.core.lands ++ [⟨⟨.mat, c.base + n⟩, c.seq, .flags f⟩] } }

/-- Matrix cycle 1 of the output path: the set is read, and the writes of the later cycles are decided (R163, R178,
R179, R181). That the summary of MSTAT shows the level from before a switch point of the same reference cycle is DEDUCED, log
entry 105. -/
def State.readSet (s : State) (i : Nat) (c : MCtx) (t : Tile) : State :=
  match c.op with
  | .mout .. =>
    match elemFmt (hFmt c.ha) with
    | none => s
    | some f =>
      s.setTile i ((List.range 8).foldl (fun x u =>
        let r := moutRows c t f u
        (x.addTasks [c.task (2 + u) (.write r.1 (c.base + 3 + u))]).landFlags c (3 + u) r.2) t)
  | .moutr .. =>
    s.setTile i (t.addTasks ((List.range 32).map fun r =>
      c.task (2 + 9 * r) (.write [moutrRow c t r] (c.base + 11 + 9 * r))))
  | _ =>
    let rows := (List.range 8).map fun u =>
      c.task (2 + u) (.write ((List.range 4).map fun k => mstatRow c t (4 * u + k)) (c.base + 3 + u))
    s.setTile i (t.addTasks (rows ++ [c.task 10 (.write [mstatSummary c t (s.cluster t).fid] (c.base + 11))]))

/-- Row r of a raw tile, read by MADDR (R179). -/
def State.rawRow (s : State) (i : Nat) (c : MCtx) (r : Nat) : State :=
  if !c.ym.getLsbD r then s
  else
    let a := hBase c.ha + r * hRstr c.ha
    let cols := (List.range 32).filter fun col => c.xm.getLsbD col
    let (s1, cs) := cols.foldl (fun (acc : State × List Contrib) col =>
      let (s1, bs, bad) := acc.1.spRead i (a + 72 * col) 72 c.slot c.iss
      (s1, acc.2 ++ [⟨32 * r + col, toSigned 576 (leNat bs), bad, 0⟩])) (s, [])
    s1.modTile i fun t => t.addTasks [c.task (12 + 9 * r) (.land cs)]

/-- One row of elements of a step of MPACK: values and poison by element; rows past he.ROWS read as +0 (R180). -/
def State.elemRow (s : State) (i : Nat) (c : MCtx) (he : BitVec 256) (f : EFmt) (r j : Nat) :
    State × List (FVal × Bool) :=
  if hRows he ≤ r then (s, List.replicate 64 (.zero false, false))
  else
    let e := f.bytes
    let a := hBase he + r * hRstr he + 64 * j * e
    let (s1, bs, _) := s.spRead i a (64 * e) c.slot c.iss
    let pz (k : Nat) : Bool := match s1.tile? i with
      | some t => t.sp.poisoned (a + k * e) e
      | none => false
    (s1, (List.range 64).map fun k => (f.value (leNat ((bs.drop (k * e)).take e)), pz k))

/-- The bit plane of a list of raw values (R81). -/
def planeWord (qs : List Nat) (b : Nat) : Nat :=
  qs.zipIdx.foldl (fun acc x => if bitOf x.1 b then acc + 2 ^ x.2 else acc) 0

/-- One step of MPACK (R85, R180). -/
def State.packStep (s : State) (i : Nat) (c : MCtx) (j : Nat) : State :=
  let hp := c.ha
  let he := c.hb
  match planeFmt (hFmt hp), elemFmt (hFmt he) with
  | some pf, some ef =>
    let n := packRows hp
    let w := blockW hp
    let tall := 64 / w
    let (s1, rows) := (List.range n).foldl (fun (acc : State × List (List (FVal × Bool))) r =>
      let (s1, x) := acc.1.elemRow i c he ef r j
      (s1, acc.2 ++ [x])) (s, [])
    let elem (r k : Nat) : FVal × Bool := (rows.getD r []).getD k (.zero false, false)
    -- blocks of the step: first row, first element
    let blocks : List (Nat × Nat) := (List.range (n / tall)).flatMap fun br => (List.range tall).map fun bk =>
      (br * tall, bk * w)
    let conv (b : Nat × Nat) : Int × List Int × FFlags × Bool :=
      let xs := (List.range tall).flatMap fun r => (List.range w).map fun k => elem (b.1 + r) (b.2 + k)
      let r := planeBlock pf ef (xs.map (·.1))
      (r.1, r.2.1, r.2.2, xs.any (·.2))
    let done := blocks.map fun b => (b, conv b)
    let flags := orFlags (done.map fun d => d.2.2.2.1)
    let qOf (r k : Nat) : Nat :=
      match done.find? fun d => d.1.1 ≤ r && r < d.1.1 + tall && d.1.2 ≤ k && k < d.1.2 + w with
      | some d => toRaw pf.planes (d.2.2.1.getD ((r - d.1.1) * w + (k - d.1.2)) 0)
      | none => 0
    let rowBad (r : Nat) : Bool :=
      if pf.scaled then done.any fun d => d.1.1 ≤ r && r < d.1.1 + tall && d.2.2.2.2
      else (rows.getD r []).any (·.2)
    let planes : List LineWrite := (List.range n).map fun r =>
      let qs := (List.range 64).map fun k => qOf r k
      LineWrite.plain (hBase hp + r * hRstr hp + j * hPstr hp)
        ((List.range pf.planes).flatMap fun b => leBytes 8 (planeWord qs b)) (rowBad r)
    let scaleOf (k : Nat) : Option (Byte × Bool) := (done.find? fun d => blockIx w d.1.1 d.1.2 == k).map fun d =>
      (BitVec.ofNat 8 (toRaw 8 d.2.1), d.2.2.2.2)
    let scales : List LineWrite :=
      if pf.scaled then
        [⟨hSbase hp + 32 * j, (List.range 32).map fun k => (scaleOf k).map (·.1),
          (List.range 32).map fun k => ((scaleOf k).map (·.2)).getD false⟩]
      else []
    s1.modTile i fun t =>
      (t.addTasks [c.task (4 + 4 * j) (.write (planes ++ scales) (c.base + 6 + 4 * j))]).landFlags c (6 + 4 * j) flags
  | _, _ => s

/-- The source words of a step of MUNPK: every row of the planes, and the scale bytes of the step once (R180). -/
def State.unpackRows (s : State) (i : Nat) (c : MCtx) (j : Nat) : State × List PlaneRow :=
  let hp := c.hb
  let w := blockW hp
  let scaled : Bool := (planeFmt (hFmt hp)).any (·.scaled)
  let sc := hSbase hp + 32 * j
  let pz : List Bool := match s.tile? i with
    | some t => (List.range 32).map fun k => t.sp.bytePoison (sc + k)
    | none => []
  let (s1, sb, _) := s.spRead i sc (if scaled then packBlocks hp else 0) c.slot c.iss
  let exp (k : Nat) : Option Int × Bool := if scaled then (scaleExp (sb.getD k 0).toNat, pz.getD k false) else (some 0, false)
  (List.range (packRows hp)).foldl (fun (acc : State × List PlaneRow) r =>
    let (s2, bs, bad) := acc.1.spRead i (hBase hp + r * hRstr hp + j * hPstr hp) (8 * hPlanes hp) c.slot c.iss
    (s2, acc.2 ++ [⟨(List.range (hPlanes hp)).map fun b => leNat ((bs.drop (8 * b)).take 8), bad,
      (List.range (64 / w)).map fun k => exp (blockIx w r (k * w))⟩])) (s1, [])

/-- Row r of the elements that MUNPK makes of a step, with its flags (R82, R84, R89). -/
def MCtx.unpackRow (c : MCtx) (ef : EFmt) (j : Nat) (x : PlaneRow × Nat) : LineWrite × FFlags :=
  let geo := geoOf c.hb
  let y (k : Nat) : Nat × FFlags × Bool :=
    let q := (List.range geo.planes).foldl (fun (v : Int) b =>
      if bitOf (x.1.words.getD b 0) k then v + planeWeight geo b else v) 0
    let e := x.1.exps.getD (k / geo.w) (none, false)
    let v := match e.1 with
      | some z => roundOut ef (hOrnd c.ha) c.frm q z
      | none => roundOut ef (hOrnd c.ha) c.frm 0 0
    (v.1, v.2, x.1.bad || e.2)
  (⟨hBase c.ha + x.2 * hRstr c.ha + 64 * j * ef.bytes,
    (List.range 64).flatMap fun k => (leBytes ef.bytes (y k).1).map some,
    (List.range 64).flatMap fun k => List.replicate ef.bytes (y k).2.2⟩, orFlags ((List.range 64).map fun k => (y k).2.1))

/-- The rows and flags of a step of MUNPK. -/
def MCtx.unpacked (c : MCtx) (j : Nat) (rows : List PlaneRow) : List (LineWrite × FFlags) :=
  match elemFmt (hFmt c.ha) with
  | some ef => rows.zipIdx.map (c.unpackRow ef j)
  | none => []

/-- One step of MUNPK is read (R180). -/
def State.unpackStep (s : State) (i : Nat) (c : MCtx) (j : Nat) : State :=
  let (s1, rows) := s.unpackRows i c j
  s1.modTile i fun t =>
    (t.addTasks [c.task (4 + 4 * j) (.expand j rows (c.base + 6 + 4 * j)), c.task (6 + 4 * j) (.hold j rows)]).landFlags c
      (6 + 4 * j) (orFlags ((c.unpacked j rows).map (·.2)))

/-- Drops what a faulting instruction still had to do. -/
def Tile.cancelM (t : Tile) (seq : Nat) : Tile :=
  { t with mtasks := t.mtasks.filter fun x => x.mseq ≠ seq, mctx := t.mctx.filter fun x => x.seq ≠ seq }

/-- A count word of MMULB (R177): its checks, then the count; a poisoned word reads as every step and poisons its
group. -/
def State.readCount (s : State) (i : Nat) (c : MCtx) (q addr : Nat) (scy : Nat) : State :=
  let stop (code : Nat) : State := (s.faultTile i code (word addr) c.slot scy).modTile i fun t => t.cancelM c.seq
  if Config.spSize < addr + 8 then stop 0x0301
  else if addr % 8 ≠ 0 then stop 0x0302
  else
    let (s1, bs, bad) := s.spRead i addr 8 c.slot c.iss
    let n := leNat bs % 2 ^ 16
    let upd (f : MCtx → MCtx) : State := s1.modTile i fun t =>
      { t with mctx := t.mctx.map fun x => if x.seq = c.seq then f x else x }
    if bad then upd fun x => { x with counts := x.counts ++ [(q, x.steps)], badGroups := q :: x.badGroups }
    else if c.steps < n then (s1.faultTile i 0x0404 (word addr) c.slot scy).modTile i fun t => t.cancelM c.seq
    else upd fun x => { x with counts := x.counts ++ [(q, n)] }

/-- The words that a write covers in part, which merge over the stored word (R191). -/
def mergeWords (ws : List LineWrite) : List Nat :=
  ws.flatMap fun w =>
    (wordsOf w.addr w.bytes.length).filter fun k =>
      (List.range 8).any (fun j => 8 * k + j < w.addr || (w.bytes.getD (8 * k + j - w.addr) none).isNone) &&
        (List.range 8).any fun j => w.addr ≤ 8 * k + j && (w.bytes.getD (8 * k + j - w.addr) none).isSome

/-- The reads that the merges of a write make: corrections are counted, an uncorrectable word is deferred (R191,
R348, R363). -/
def State.mergeReads (s : State) (i : Nat) (ws : List LineWrite) (slot fcyc : Nat) : State :=
  s.checkWords i (mergeWords ws) slot fcyc

/-- A write through the matrix port: the words wait for their visibility cycle (R189). -/
def Tile.writeM (t : Tile) (c : MCtx) (ws : List LineWrite) (vis : Nat) : Tile :=
  { t with wbuf := t.wbuf ++ ws.flatMap (lineWords ⟨.mat, vis⟩ c.seq c.slot true) }

/-- Writes through the matrix port at their bank cycle: the merge reads, and the words that wait. -/
def State.portM (s : State) (i : Nat) (c : MCtx) (ws : List LineWrite) (vis : Nat) : State :=
  (s.mergeReads i ws c.slot c.iss).modTile i fun t => t.writeM c ws vis

/-- Does one pending act of tile i. -/
def State.runMAct (s : State) (i : Nat) (x : MTask) : State :=
  match s.tile? i with
  | none => s
  | some t =>
    match x.act with
    | .clear z => s.setTile i { t with acc := t.acc.set z .reset }
    | act =>
      match t.mctx.find? fun c => c.seq == x.mseq with
      | none => s
      | some c =>
        match act with
        | .count q addr => s.readCount i c q addr (s.tileEnv t).scy
        | .fetch steps land =>
          let (s1, ds) := steps.foldl (fun (acc : State × List StepData) j =>
            let (s1, ds) := acc.1.fetchStep i c j
            (s1, acc.2 ++ ds)) (s, [])
          s1.modTile i fun t => t.addTasks [c.task land (.steps ds)]
        | .steps ds => ds.foldl (fun s d => s.landStep i c d) s
        | .rawRow r => s.rawRow i c r
        | .readSet => s.readSet i c t
        | .pack j => s.packStep i c j
        | .unpack j => s.unpackStep i c j
        | .expand j rows vis => s.portM i c ((c.unpacked j rows).map (·.1)) vis
        | .hold _ _ => s
        | .write ws vis => s.portM i c ws vis
        | .land cs => s.setTile i { t with acc := t.acc.set c.z ((t.acc.get c.z).addAll cs) }
        | .clear _ => s

/-- The stage of an act within a reference cycle: contributions land, then clears, then reads and writes (R163,
R164). -/
def MAct.stage : MAct → Nat
  | .land _ => 0
  | .steps _ => 0
  | .clear _ => 1
  | _ => 2

/-- The acts of tile i that are due, stage by stage. -/
def State.runMatrix (s : State) (i : Nat) : State :=
  match s.tile? i with
  | none => s
  | some t =>
    let e := s.tileEnv t
    let due := t.mtasks.filter fun x => e.reached x.due
    let s1 := s.setTile i { t with mtasks := t.mtasks.filter fun x => !e.reached x.due }
    let s2 := ([0, 1, 2].flatMap fun k => due.filter fun x => x.act.stage == k).foldl (fun s x => s.runMAct i x) s1
    s2.modTile i fun t => { t with mctx := t.mctx.filter fun c => t.mtasks.any fun x => x.mseq == c.seq }

end Sys2Proof.Machine
end

