-- ==== Sys2Proof/Machine/Vector.lean ====
section
/-! DEFINITION. The V class (R193 to R215): what each instruction latches at issue, the lines it reads in vector cycle
1, and the lines, registers, masks and flags that it writes in vector cycle L. Gather and scatter continue in
Access.lean. -/

namespace Sys2Proof.Machine

/-! ## Types and lanes (R193) -/

def vwidth : VType → Nat
  | .i8 | .n8 => 1
  | .i16 | .n16 | .bf16 | .f16 => 2
  | .i32 | .f32 => 4

def vfmt : VType → EFmt
  | .i8 => .int 8 true
  | .n8 => .int 8 false
  | .i16 => .int 16 true
  | .n16 => .int 16 false
  | .i32 => .int 32 true
  | .bf16 => .flt bf16
  | .f16 => .flt f16
  | .f32 => .flt f32

/-- Bytes as read, with the poison of each. -/
structure Line where
  bytes : List Byte
  pz : List Bool
  deriving DecidableEq, Repr

def Line.none : Line := ⟨[], []⟩

/-- Element i of a line, as raw bits, and whether any byte of it is poisoned. -/
def Line.elem (l : Line) (w i : Nat) : Nat := leNat ((l.bytes.drop (i * w)).take w)
def Line.elemPz (l : Line) (w i : Nat) : Bool := ((l.pz.drop (i * w)).take w).any id
def Line.anyPz (l : Line) : Bool := l.pz.any id

/-- en(i) of R193. -/
def laneOn (mask : BitVec 64) (w i : Nat) : Bool := (List.range w).all fun j => mask.getLsbD (i * w + j)

/-- The enabled lanes of n. -/
def lanesOn (mask : BitVec 64) (w n : Nat) : List Nat := (List.range n).filter (laneOn mask w)

/-- The line write that puts some elements of width w at an address: raw bits and poison by lane (R193). -/
def putLanes (addr w n : Nat) (f : Nat → Option (Nat × Bool)) : LineWrite :=
  let cells := (List.range n).map f
  ⟨addr, cells.flatMap fun c => match c with
      | some (v, _) => (leBytes w v).map some
      | none => List.replicate w none,
    cells.flatMap fun c => match c with
      | some (_, p) => List.replicate w p
      | none => List.replicate w false⟩

/-! ## Elements (R198 to R205, R213) -/

/-- A signed or unsigned integer of a type from raw bits; of a floating type, its bits as an unsigned integer. -/
def vint (t : VType) (x : Nat) : Int :=
  match vfmt t with
  | .int b s => intValue b s x
  | .flt _ => x

/-- An integer result wrapped to the width of the type (R68). -/
def vwrap (t : VType) (v : Int) : Nat := toRaw (8 * (vwidth t)) v

/-- VADD to VMAX, VABS and VNEG on one element (R198): a and b, and the addend d of VFMA. -/
def vArith (op : Instr) (t : VType) (frm : RMode) (a b d : Nat) : Nat × FFlags :=
  match vfmt t with
  | .int _ _ =>
    let x := vint t a
    let y := vint t b
    (match op with
      | .vadd .. => vwrap t (x + y)
      | .vsub .. => vwrap t (x - y)
      | .vmul .. => vwrap t (x * y)
      | .vfma .. => vwrap t (x * y + vint t d)
      | .vmin .. => if y < x then b else a
      | .vmax .. => if x < y then b else a
      | .vabs .. => if x < 0 then vwrap t (-x) else a
      | _ => vwrap t (-x), 0)
  | .flt f =>
    let sign := 2 ^ (f.eb + f.fb)
    match op with
    | .vadd .. => fadd f frm a b
    | .vsub .. => fsub f frm a b
    | .vmul .. => fmul f frm a b
    | .vfma .. => ffma f frm a b d
    | .vmin .. => fminmax f false a b
    | .vmax .. => fminmax f true a b
    | .vabs .. => (a % sign, 0)
    | _ => (if a < sign then a + sign else a - sign, 0)

/-- VADDS and VSUBS on one element (R199). -/
def vSat (op : Instr) (t : VType) (a b : Nat) : Nat × FFlags :=
  match vfmt t, op with
  | .int w s, .vadds .. => satDeliver w s (vint t a + vint t b)
  | .int w s, _ => satDeliver w s (vint t a - vint t b)
  | .flt _, _ => (0, 0)

/-- Bitwise operations and shifts on one element (R200). -/
def vBits (op : Instr) (t : VType) (a b : Nat) : Nat :=
  let w := 8 * (vwidth t)
  let s := b % w
  match op with
  | .vand .. => Nat.land a b
  | .vor .. => Nat.lor a b
  | .vxor .. => Nat.xor a b
  | .vshl .. => a * 2 ^ s % 2 ^ w
  | .vshr .. => a / 2 ^ s
  | _ => toRaw w (toSigned w a / (2 ^ s : Nat))

/-- The comparison of VCMPEQ to VCMPLE on one element (R201). -/
def vCompare (c : VCmp) (t : VType) (a b : Nat) : Bool × FFlags :=
  match vfmt t with
  | .flt f => fcmp f c a b
  | .int _ _ =>
    let x := vint t a
    let y := vint t b
    (match c with
      | .eq => x == y
      | .ne => x != y
      | .lt => x < y
      | .le => x ≤ y, 0)

/-- Whether an element counts as non-zero (R202). -/
def vNonZero (t : VType) (a : Nat) : Bool :=
  match vfmt t with
  | .flt f => !(f.value a).isZero
  | .int _ _ => a != 0

/-- The correctly rounded functions on one element (R205). -/
def vFunc (op : Instr) (t : VType) (frm : RMode) (a : Nat) : Nat × FFlags :=
  match vfmt t with
  | .int _ _ => (0, 0)
  | .flt f =>
    match op with
    | .vexp2 .. => funary f exp2Exact frm a
    | .vlog2 .. => funary f log2Exact frm a
    | .vrcp .. => funary f rcpExact frm a
    | .vrsq .. => funary f rsqExact frm a
    | _ => funary f sqrtExact frm a

/-- One value of VRAND (R213). -/
def vRandom (t : VType) (key ctr : Nat) (i : Nat) : Nat :=
  let m := 2 ^ 32
  let x0 := Nat.xor ((ctr + i) % m) (key % m)
  let x1 := Nat.xor x0 (x0 / 2 ^ 16) * 0x6C8E_9CF5 % m
  let x2 := Nat.xor x1 (x1 / 2 ^ 13) * 0x3AD5_B1A7 % m
  let x3 := Nat.xor x2 (x2 / 2 ^ 16)
  if t = .f32 then (f32.pack .rne false (FVal.ofInt false (x3 / 256 : Nat) (-24))).1 else x3

/-! ## Reductions and scans (R206 to R208) -/

/-- VRED over the present elements, absent ones marked (R90, R206): the o value and flags. -/
def vReduce (t : VType) (fn : RedFn) (frm : RMode) (xs : List (Option Nat)) : Word × FFlags :=
  match vfmt t with
  | .flt f =>
    let j := match fn with
      | .min => fminmax f false
      | .max => fminmax f true
      | _ => fadd f frm
    let r := joinTree j 7 xs
    (word (r.1.getD 0), r.2)
  | .int _ _ =>
    let ys := xs.filterMap id
    let ext (x : Nat) : Word := BitVec.ofInt 64 (vint t x)
    (match fn, ys with
      | _, [] => 0
      | .add, _ => ys.foldl (fun acc y => acc + ext y) 0
      | .min, y :: rest => BitVec.ofInt 64 (rest.foldl (fun acc z => min acc (vint t z)) (vint t y))
      | .max, y :: rest => BitVec.ofInt 64 (rest.foldl (fun acc z => max acc (vint t z)) (vint t y))
      | .and, y :: rest => word (rest.foldl Nat.land y)
      | .or, _ => word (ys.foldl Nat.lor 0)
      | .xor, _ => word (ys.foldl Nat.xor 0), 0)

/-- The order that VREDX uses on numbers (R76, R207). -/
def vKey (t : VType) (x : Nat) : Int :=
  match vfmt t with
  | .flt f => f.cmpKey x
  | .int _ _ => vint t x

def vIsNan (t : VType) (x : Nat) : Bool :=
  match vfmt t with
  | .flt f => (f.value x).isNan
  | .int _ _ => false

/-- VREDX over enabled lanes in ascending order (R207). -/
def vIndex (t : VType) (fn : RedxFn) (xs : List (Nat × Nat)) : Word × FFlags :=
  let pack (lane v : Nat) : Word := word (lane * 2 ^ 32 + v)
  let flags := match vfmt t with
    | .flt f => orFlags (xs.map fun x => (f.value x.2).snanFlag)
    | .int _ _ => 0
  match xs.find? fun x => vIsNan t x.2 with
  | some (lane, _) =>
    (match vfmt t with
      | .flt f => pack lane f.nan
      | .int _ _ => 0, flags)
  | none =>
    match xs with
    | [] => (word 0xFFFF_FFFF_0000_0000, 0)
    | x :: rest =>
      let better (y z : Nat × Nat) : Bool := match fn with
        | .min => vKey t z.2 < vKey t y.2
        | .max => vKey t y.2 < vKey t z.2
      let r := rest.foldl (fun y z => if better y z then z else y) x
      (pack r.1 r.2, flags)

/-- VSCAN lane by lane (R91, R208): running value and its poison; outputs by lane, newest first; flags. -/
def vScanStep (t : VType) (frm : RMode) (mask : BitVec 64) (a : Line) :
    (Nat × Bool × List (Option (Nat × Bool)) × FFlags) → Nat → Nat × Bool × List (Option (Nat × Bool)) × FFlags
  | (y, p, outs, fl), i =>
    let w := (vwidth t)
    if laneOn mask w i then
      let x := a.elem w i
      let p' := p || a.elemPz w i
      match vfmt t with
      | .flt f =>
        let r := fadd f frm y x
        (r.1, p', some (r.1, p') :: outs, fl ||| r.2)
      | .int _ _ =>
        let v := toRaw 64 ((y : Int) + vint t x)
        (v, p', some (v % 2 ^ (8 * w), p') :: outs, fl)
    else (y, p, none :: outs, fl)

/-! ## Sorting (R214, R215) -/

/-- A key and index pair with its operand (0 a, 1 b) and lane. -/
structure KeyPair where
  key : Nat
  index : Nat
  src : Nat
  lane : Nat
  deriving DecidableEq, Repr

/-- The value of a key in the order of R214: a NaN lies below every number. -/
def sortKey (t : VType) (x : Nat) : Int :=
  match vfmt t with
  | .flt f => if (f.value x).isNan then -(2 ^ 40 : Nat) else f.cmpKey x
  | .int _ _ => vint t x

/-- Whether x stands before y (R214). -/
def pairBefore (t : VType) (x y : KeyPair) : Bool :=
  let a := sortKey t x.key
  let b := sortKey t y.key
  if a != b then b < a
  else if x.index != y.index then x.index < y.index
  else if x.src != y.src then x.src < y.src
  else x.lane < y.lane

def insertPair (t : VType) (x : KeyPair) : List KeyPair → List KeyPair
  | [] => [x]
  | y :: ys => if pairBefore t x y then x :: y :: ys else y :: insertPair t x ys

def sortPairs (t : VType) (xs : List KeyPair) : List KeyPair := xs.foldr (insertPair t) []

/-- The present pairs of one pair line (R214). -/
def pairsOf (mask : BitVec 64) (src : Nat) (keys idxs : Line) : List KeyPair :=
  (lanesOn mask 4 16).map fun i => ⟨keys.elem 4 i, idxs.elem 4 i, src, i⟩

/-- The filler key (R214). -/
def fillerKey (t : VType) : Nat := if t = .f32 then 0x7FC0_0000 else 0x8000_0000

/-! ## What an instruction names -/

/-- The element type, by instruction. -/
def vTypeOf : Instr → VType
  | .vadd _ t .. | .vsub _ t .. | .vmul _ t .. | .vfma _ t .. | .vmin _ t .. | .vmax _ t .. | .vabs _ t ..
  | .vneg _ t .. | .vadds _ t .. | .vsubs _ t .. | .vand _ t .. | .vor _ t .. | .vxor _ t .. | .vshl _ t ..
  | .vshr _ t .. | .vsra _ t .. | .vcmpeq _ t .. | .vcmpne _ t .. | .vcmplt _ t .. | .vcmple _ t .. | .vsel _ t ..
  | .vcvt _ t .. | .vexp2 _ t .. | .vlog2 _ t .. | .vrcp _ t .. | .vrsq _ t .. | .vsqrt _ t .. | .vred _ t ..
  | .vredx _ t .. | .vscan _ t .. | .vcomp _ t .. | .vexpd _ t .. | .vperm _ t .. | .vbcast _ t .. | .vmov _ t ..
  | .viota _ t .. | .vany _ t .. | .vall _ t .. | .vpopm _ t .. | .vmask _ t .. | .vrand _ t .. | .vsrt _ t ..
  | .vmrg _ t .. | .vgath _ t .. | .vscat _ t .. => t
  | _ => .i8

/-- L in vector cycles (R195). -/
def vLatency : Instr → Nat
  | .vpopm .. => 2
  | .vand .. | .vor .. | .vxor .. | .vshl .. | .vshr .. | .vsra .. | .vsel .. | .vmov .. | .vbcast .. | .viota ..
  | .vperm .. | .vabs .. | .vneg .. => 3
  | .vadd _ t .. | .vsub _ t .. | .vmin _ t .. | .vmax _ t .. => if t.isFloat then 5 else 3
  | .vmul _ t .. | .vfma _ t .. => if t.isFloat then 5 else 4
  | .vadds .. | .vsubs .. | .vcmpeq .. | .vcmpne .. | .vcmplt .. | .vcmple .. | .vmask .. | .vcomp .. | .vexpd ..
  | .vany .. | .vall .. | .vrand .. => 4
  | .vcvt .. => 5
  | .vgath .. => 7
  | .vscat .. => 5
  | .vred .. | .vredx .. => 8
  | .vscan .. | .vexp2 .. | .vlog2 .. | .vrcp .. | .vrsq .. | .vsqrt .. => 10
  | .vsrt .. | .vmrg .. => 12
  | _ => 3

/-- Elements, source and destination chunk of a VCVT (R204). -/
def cvtLanes (dt st : VType) : Nat := 64 / max (vwidth dt) (vwidth st)

/-- The operands that are checked at issue, in the order a, b, d (R197): address, size, alignment; of the table of a gather or
scatter its base address alone, by its range and then its alignment (R139, R217). -/
def VCtx.operands (v : VCtx) : List (Int × Nat × Nat) :=
  let a : Int × Nat × Nat := (v.addrA, 64, 64)
  let b : Int × Nat × Nat := (v.addrB, 64, 64)
  let d : Int × Nat × Nat := (v.addrD, 64, 64)
  match v.op with
  | .vadd .. | .vsub .. | .vmul .. | .vfma .. | .vmin .. | .vmax .. | .vadds .. | .vsubs .. | .vand .. | .vor ..
  | .vxor .. | .vshl .. | .vshr .. | .vsra .. | .vsel .. | .vperm .. => [a, b, d]
  | .vabs .. | .vneg .. | .vexp2 .. | .vlog2 .. | .vrcp .. | .vrsq .. | .vsqrt .. | .vscan .. | .vcomp ..
  | .vexpd .. | .vmov .. => [a, d]
  | .vcmpeq .. | .vcmpne .. | .vcmplt .. | .vcmple .. => [a, b]
  | .vred .. | .vredx .. | .vany .. | .vall .. | .vmask .. => [a]
  | .vbcast .. | .viota .. | .vrand .. => [d]
  | .vcvt _ t _ _ _ st =>
    let n := cvtLanes t st
    [(v.addrA, n * (vwidth st), n * (vwidth st)), (v.addrD, n * (vwidth t), n * (vwidth t))]
  | .vsrt .. => [(v.addrA, 128, 64), (v.addrD, 128, 64)]
  | .vmrg .. => [(v.addrA, 128, 64), (v.addrB, 128, 64), (v.addrD, 128, 64)]
  | .vgath _ t .. => [(v.addrA, 1, vwidth t), b, d]
  | .vscat _ t .. => [a, b, (v.addrD, 1, vwidth t)]
  | _ => []

/-- The bytes read in vector cycle 1, as address and length (R194, R215, R217, R218). -/
def VCtx.reads (v : VCtx) : List (Nat × Nat) :=
  let a := v.addrA.toNat
  let b := v.addrB.toNat
  let d := v.addrD.toNat
  match v.op with
  | .vfma .. => [(a, 64), (b, 64), (d, 64)]
  | .vadd .. | .vsub .. | .vmul .. | .vmin .. | .vmax .. | .vadds .. | .vsubs .. | .vand .. | .vor .. | .vxor ..
  | .vshl .. | .vshr .. | .vsra .. | .vsel .. | .vperm .. | .vcmpeq .. | .vcmpne .. | .vcmplt .. | .vcmple ..
  | .vscat .. => [(a, 64), (b, 64)]
  | .vabs .. | .vneg .. | .vexp2 .. | .vlog2 .. | .vrcp .. | .vrsq .. | .vsqrt .. | .vscan .. | .vcomp ..
  | .vexpd .. | .vmov .. | .vred .. | .vredx .. | .vany .. | .vall .. | .vmask .. => [(a, 64)]
  | .vcvt _ t _ _ _ st => [(a, cvtLanes t st * (vwidth st))]
  | .vsrt .. => [(a, 64), (a + 64, 64)]
  | .vmrg .. => [(a, 64), (a + 64, 64), (b, 64), (b + 64, 64)]
  | .vgath .. => [(b, 64)]
  | _ => []

/-- Whether a poisoned word among the lines read takes 0x0306 at the read (R197). -/
def vMaskResult : Instr → Bool
  | .vcmpeq .. | .vcmpne .. | .vcmplt .. | .vcmple .. | .vmask .. => true
  | _ => false

/-! ## Results -/

/-- What an instruction writes in vector cycle L. -/
structure VRes where
  writes : List LineWrite
  effs : List Effect

/-- An o result: taint 1 (R197). -/
def oResult (k : Fin 8) (v : Word) (poison : Bool) : Effect := .reg (.o k) ⟨v, true, poison⟩

/-- The flags of R79 as effects. -/
def flagEffs (f : FFlags) : List Effect := if f = 0 then [] else [.flags f]

/-- An elementwise instruction: f gives the value, flags and poison of lane i. -/
def elementwise (v : VCtx) (t : VType) (f : Nat → Nat × FFlags × Bool) : VRes :=
  let w := (vwidth t)
  let n := 64 / w
  let on := lanesOn v.mask w n
  ⟨[putLanes v.addrD.toNat w n fun i => if laneOn v.mask w i then some ((f i).1, (f i).2.2) else none],
    flagEffs (orFlags (on.map fun i => (f i).2.1))⟩

/-- The mask that a compare or VMASK delivers (R201, R202). -/
def maskResult (mask : BitVec 64) (w : Nat) (c : Nat → Bool) : BitVec 64 :=
  BitVec.ofNat 64 ((List.range 64).foldl (fun acc j =>
    if laneOn mask w (j / w) && c (j / w) then acc + 2 ^ j else acc) 0)

def compareResult (v : VCtx) (c : VCmp) (k : Fin 8) (a b : Line) : VRes :=
  let t := vTypeOf v.op
  let w := (vwidth t)
  let on := lanesOn v.mask w (64 / w)
  ⟨[], .vmask k (maskResult v.mask w fun i => (vCompare c t (a.elem w i) (b.elem w i)).1) ::
    flagEffs (orFlags (on.map fun i => (vCompare c t (a.elem w i) (b.elem w i)).2))⟩

/-- The two output lines of VSRT and VMRG (R215). -/
def sortResult (v : VCtx) (t : VType) (ps : List KeyPair) (poison : Bool) : VRes :=
  let out := (sortPairs t ps).take 16
  let at_ (i : Nat) : KeyPair := out.getD i ⟨fillerKey t, 0xFFFF_FFFF, 0, i⟩
  let d := v.addrD.toNat
  ⟨[putLanes d 4 16 fun i => some ((at_ i).key, poison), putLanes (d + 64) 4 16 fun i => some ((at_ i).index, poison)],
    []⟩

/-- The results of an instruction over the lines that it read, in the order of `VCtx.reads`. DEDUCED, log entry 21. -/
def VCtx.result (v : VCtx) (ls : List Line) : VRes :=
  let t := vTypeOf v.op
  let w := (vwidth t)
  let n := 64 / w
  let a := ls.getD 0 .none
  let b := ls.getD 1 .none
  let d := ls.getD 2 .none
  let on := lanesOn v.mask w n
  let pz2 (i : Nat) : Bool := a.elemPz w i || b.elemPz w i
  let dst := v.addrD.toNat
  match v.op with
  | .vadd .. | .vsub .. | .vmul .. | .vfma .. | .vmin .. | .vmax .. | .vabs .. | .vneg .. =>
    elementwise v t fun i =>
      let r := vArith v.op t v.frm (a.elem w i) (b.elem w i) (d.elem w i)
      (r.1, r.2, pz2 i || d.elemPz w i)
  | .vadds .. | .vsubs .. =>
    elementwise v t fun i =>
      let r := vSat v.op t (a.elem w i) (b.elem w i)
      (r.1, r.2, pz2 i)
  | .vand .. | .vor .. | .vxor .. | .vshl .. | .vshr .. | .vsra .. =>
    elementwise v t fun i => (vBits v.op t (a.elem w i) (b.elem w i), 0, pz2 i)
  | .vcmpeq _ _ _ k _ _ => compareResult v .eq k a b
  | .vcmpne _ _ _ k _ _ => compareResult v .ne k a b
  | .vcmplt _ _ _ k _ _ => compareResult v .lt k a b
  | .vcmple _ _ _ k _ _ => compareResult v .le k a b
  | .vsel .. =>
    ⟨[putLanes dst w n fun i =>
      let x := if laneOn v.mask w i then a else b
      some (x.elem w i, x.elemPz w i)], []⟩
  | .vcvt _ dt _ _ _ st =>
    let k := cvtLanes dt st
    let ws := (vwidth st)
    let r (i : Nat) := convert (vfmt st) (vfmt dt) v.frm (a.elem ws i)
    let en := lanesOn v.mask (vwidth dt) k
    ⟨[putLanes dst (vwidth dt) k fun i => if laneOn v.mask (vwidth dt) i then some ((r i).1, a.elemPz ws i) else none],
      flagEffs (orFlags (en.map fun i => (r i).2))⟩
  | .vexp2 .. | .vlog2 .. | .vrcp .. | .vrsq .. | .vsqrt .. =>
    elementwise v t fun i =>
      let r := vFunc v.op t v.frm (a.elem w i)
      (r.1, r.2, a.elemPz w i)
  | .vred _ _ _ k _ fn =>
    let r := vReduce t fn v.frm ((List.range n).map fun i => if laneOn v.mask w i then some (a.elem w i) else none)
    ⟨[], oResult k r.1 a.anyPz :: flagEffs r.2⟩
  | .vredx _ _ _ k _ fn =>
    let r := vIndex t fn (on.map fun i => (i, a.elem w i))
    ⟨[], oResult k r.1 a.anyPz :: flagEffs r.2⟩
  | .vscan _ _ _ _ _ k =>
    let c := if t.isFloat then v.o1.val.toNat % 2 ^ (8 * w) else v.o1.val.toNat
    let r := (List.range n).foldl (vScanStep t v.frm v.mask a) (c, v.o1.poison, [], 0)
    let outs := r.2.2.1.reverse
    ⟨[putLanes dst w n fun i => outs.getD i none], oResult k (word r.1) (v.o1.poison || a.anyPz) :: flagEffs r.2.2.2⟩
  | .vcomp _ _ _ _ _ k =>
    ⟨[putLanes dst w n fun j => (on[j]?).map fun i => (a.elem w i, a.elemPz w i)], [oResult k (word on.length) a.anyPz]⟩
  | .vexpd _ _ _ _ _ k =>
    ⟨[putLanes dst w n fun i =>
      if laneOn v.mask w i then
        let j := (on.filter (· < i)).length
        some (a.elem w j, a.elemPz w j)
      else none], [oResult k (word on.length) a.anyPz]⟩
  | .vperm .. =>
    elementwise v t fun i =>
      let p := b.elem w i
      if p < n then (a.elem w p, 0, a.elemPz w p || b.elemPz w i) else (0, 0, b.elemPz w i)
  | .vbcast .. => elementwise v t fun _ => (v.o1.val.toNat % 2 ^ (8 * w), 0, v.o1.poison)
  | .vmov .. => elementwise v t fun i => (a.elem w i, 0, a.elemPz w i)
  | .viota .. => elementwise v t fun i => ((v.o1.val.toNat + i) % 2 ^ (8 * w), 0, v.o1.poison)
  | .vany _ _ _ k _ => ⟨[], [.pair k ⟨on.any fun i => vNonZero t (a.elem w i), true, a.anyPz⟩]⟩
  | .vall _ _ _ k _ => ⟨[], [.pair k ⟨on.all fun i => vNonZero t (a.elem w i), true, a.anyPz⟩]⟩
  | .vpopm _ _ _ k _ =>
    -- addrA carries the latched mask mj
    ⟨[], [oResult k (word (on.filter fun i => laneOn (BitVec.ofInt 64 v.addrA) w i).length) false]⟩
  | .vmask _ _ _ k _ => ⟨[], [.vmask k (maskResult v.mask w fun i => vNonZero t (a.elem w i))]⟩
  | .vrand .. =>
    elementwise v t fun i => (vRandom t v.o1.val.toNat v.o2.val.toNat i, 0, v.o1.poison || v.o2.poison)
  | .vsrt .. => sortResult v t (pairsOf v.mask 0 a b) (a.anyPz || b.anyPz)
  | .vmrg .. =>
    let c := ls.getD 3 .none
    sortResult v t (pairsOf v.mask 0 a b ++ pairsOf v.mask 1 d c) (ls.any (·.anyPz))
  | _ => ⟨[], []⟩

/-! ## Issue -/

/-- How a V slot uses registers: o sources are data; tainted ones invalidate a tape (R197). -/
def useV (i : Instr) (g : Guard) (os : List (Fin 8)) : Use :=
  { useT i g (os.map fun k => (.o k, false)) [] with srcReason := some 0x0007 }

/-- Lands the advanced position of a generator one control cycle after issue (R140). -/
def State.landPosition (s : State) (n : Fin 16) (x : Gen) : State := s.landK 1 (.agPos n x.ii x.oi)

/-- The generators an instruction names, each once. -/
def namedGens (a b d : Option (Fin 16)) : List (Fin 16) := ([a, b, d].filterMap id).eraseDups

/-- The first operand that fails its checks (R197). -/
def vCheck (slot : Nat) : List (Int × Nat × Nat) → Option Trap
  | [] => none
  | (a, size, align) :: rest =>
    match addrCheck slot a size align with
    | some t => some t
    | none => vCheck slot rest

/-- The issue of a V instruction (R194): it latches its generators, mask, FRM and o sources, takes its unit for the
vector cycle, and decides its accesses. -/
def execV (i : Instr) (g : Guard) (m : Fin 8) (a b d : Option (Fin 16)) (os : List (Fin 8)) (s : State) :
    Host.Outcome State Fault Refusal :=
  issue (useV i g os) s fun vs s =>
    match s.focusTile? with
    | none => .ok s
    | some t =>
      let e := s.env
      let unit : Fin 2 := if s.second then 1 else 0
      let gen (n : Option (Fin 16)) : Int := match n with
        | some n => (t.gens.get n).addr
        | none => 0
      let mj : Int := match i with
        | .vpopm _ _ _ _ j => (if j = 0 then BitVec.allOnes 64 else t.vm.get j).toNat
        | _ => gen a
      let v : VCtx :=
        { op := i, addrA := mj, addrB := gen b, addrD := gen d,
          mask := if m = 0 then BitVec.allOnes 64 else t.vm.get m, frm := RMode.ofCode t.frm.toNat,
          o1 := srcAt vs 0, o2 := srcAt vs 1 }
      if t.vbusy.get unit = some e.vec then .error (s.trapAt 0x0102 (word (s.slotAddr t.core)))
      else
        match vCheck s.slot v.operands with
        | some f => .error f
        | none =>
          let s1 := s.modFocus fun t => { t with vbusy := t.vbusy.set unit (some e.vec) }
          let s2 := (namedGens a b d).foldl (fun s n => s.landPosition n (t.gens.get n).step) s1
          if v.reads.isEmpty then
            let r := v.result []
            .ok (s2.pushAccess ⟨.vec, e.vec + vLatency i⟩ (.vwrite r.writes r.effs))
          else .ok (s2.pushAccess ⟨.vec, e.vec + 1⟩ (.vread v))

def execVnop (_g : Guard) (s : State) : Host.Outcome State Fault Refusal := issueNop (some .tile) s
def execVadd (g : Guard) (t : VType) (m : Fin 8) (d a b : Fin 16) (s : State) :
    Host.Outcome State Fault Refusal :=
  execV (.vadd g t m d a b) g m (some a) (some b) (some d) [] s
def execVsub (g : Guard) (t : VType) (m : Fin 8) (d a b : Fin 16) (s : State) :
    Host.Outcome State Fault Refusal :=
  execV (.vsub g t m d a b) g m (some a) (some b) (some d) [] s
def execVmul (g : Guard) (t : VType) (m : Fin 8) (d a b : Fin 16) (s : State) :
    Host.Outcome State Fault Refusal :=
  execV (.vmul g t m d a b) g m (some a) (some b) (some d) [] s
def execVfma (g : Guard) (t : VType) (m : Fin 8) (d a b : Fin 16) (s : State) :
    Host.Outcome State Fault Refusal :=
  execV (.vfma g t m d a b) g m (some a) (some b) (some d) [] s
def execVmin (g : Guard) (t : VType) (m : Fin 8) (d a b : Fin 16) (s : State) :
    Host.Outcome State Fault Refusal :=
  execV (.vmin g t m d a b) g m (some a) (some b) (some d) [] s
def execVmax (g : Guard) (t : VType) (m : Fin 8) (d a b : Fin 16) (s : State) :
    Host.Outcome State Fault Refusal :=
  execV (.vmax g t m d a b) g m (some a) (some b) (some d) [] s
def execVadds (g : Guard) (t : VType) (m : Fin 8) (d a b : Fin 16) (s : State) :
    Host.Outcome State Fault Refusal :=
  execV (.vadds g t m d a b) g m (some a) (some b) (some d) [] s
def execVsubs (g : Guard) (t : VType) (m : Fin 8) (d a b : Fin 16) (s : State) :
    Host.Outcome State Fault Refusal :=
  execV (.vsubs g t m d a b) g m (some a) (some b) (some d) [] s
def execVand (g : Guard) (t : VType) (m : Fin 8) (d a b : Fin 16) (s : State) :
    Host.Outcome State Fault Refusal :=
  execV (.vand g t m d a b) g m (some a) (some b) (some d) [] s
def execVor (g : Guard) (t : VType) (m : Fin 8) (d a b : Fin 16) (s : State) :
    Host.Outcome State Fault Refusal :=
  execV (.vor g t m d a b) g m (some a) (some b) (some d) [] s
def execVxor (g : Guard) (t : VType) (m : Fin 8) (d a b : Fin 16) (s : State) :
    Host.Outcome State Fault Refusal :=
  execV (.vxor g t m d a b) g m (some a) (some b) (some d) [] s
def execVshl (g : Guard) (t : VType) (m : Fin 8) (d a b : Fin 16) (s : State) :
    Host.Outcome State Fault Refusal :=
  execV (.vshl g t m d a b) g m (some a) (some b) (some d) [] s
def execVshr (g : Guard) (t : VType) (m : Fin 8) (d a b : Fin 16) (s : State) :
    Host.Outcome State Fault Refusal :=
  execV (.vshr g t m d a b) g m (some a) (some b) (some d) [] s
def execVsra (g : Guard) (t : VType) (m : Fin 8) (d a b : Fin 16) (s : State) :
    Host.Outcome State Fault Refusal :=
  execV (.vsra g t m d a b) g m (some a) (some b) (some d) [] s
def execVsel (g : Guard) (t : VType) (m : Fin 8) (d a b : Fin 16) (s : State) :
    Host.Outcome State Fault Refusal :=
  execV (.vsel g t m d a b) g m (some a) (some b) (some d) [] s
def execVperm (g : Guard) (t : VType) (m : Fin 8) (d a b : Fin 16) (s : State) :
    Host.Outcome State Fault Refusal :=
  execV (.vperm g t m d a b) g m (some a) (some b) (some d) [] s
def execVmrg (g : Guard) (t : VType) (m : Fin 8) (d a b : Fin 16) (s : State) :
    Host.Outcome State Fault Refusal :=
  execV (.vmrg g t m d a b) g m (some a) (some b) (some d) [] s
def execVgath (g : Guard) (t : VType) (m : Fin 8) (d a b : Fin 16) (s : State) :
    Host.Outcome State Fault Refusal :=
  execV (.vgath g t m d a b) g m (some a) (some b) (some d) [] s
def execVscat (g : Guard) (t : VType) (m : Fin 8) (d a b : Fin 16) (s : State) :
    Host.Outcome State Fault Refusal :=
  execV (.vscat g t m d a b) g m (some a) (some b) (some d) [] s
def execVabs (g : Guard) (t : VType) (m : Fin 8) (d a : Fin 16) (s : State) :
    Host.Outcome State Fault Refusal :=
  execV (.vabs g t m d a) g m (some a) none (some d) [] s
def execVneg (g : Guard) (t : VType) (m : Fin 8) (d a : Fin 16) (s : State) :
    Host.Outcome State Fault Refusal :=
  execV (.vneg g t m d a) g m (some a) none (some d) [] s
def execVexp2 (g : Guard) (t : VType) (m : Fin 8) (d a : Fin 16) (s : State) :
    Host.Outcome State Fault Refusal :=
  execV (.vexp2 g t m d a) g m (some a) none (some d) [] s
def execVlog2 (g : Guard) (t : VType) (m : Fin 8) (d a : Fin 16) (s : State) :
    Host.Outcome State Fault Refusal :=
  execV (.vlog2 g t m d a) g m (some a) none (some d) [] s
def execVrcp (g : Guard) (t : VType) (m : Fin 8) (d a : Fin 16) (s : State) :
    Host.Outcome State Fault Refusal :=
  execV (.vrcp g t m d a) g m (some a) none (some d) [] s
def execVrsq (g : Guard) (t : VType) (m : Fin 8) (d a : Fin 16) (s : State) :
    Host.Outcome State Fault Refusal :=
  execV (.vrsq g t m d a) g m (some a) none (some d) [] s
def execVsqrt (g : Guard) (t : VType) (m : Fin 8) (d a : Fin 16) (s : State) :
    Host.Outcome State Fault Refusal :=
  execV (.vsqrt g t m d a) g m (some a) none (some d) [] s
def execVmov (g : Guard) (t : VType) (m : Fin 8) (d a : Fin 16) (s : State) :
    Host.Outcome State Fault Refusal :=
  execV (.vmov g t m d a) g m (some a) none (some d) [] s
def execVsrt (g : Guard) (t : VType) (m : Fin 8) (d a : Fin 16) (s : State) :
    Host.Outcome State Fault Refusal :=
  execV (.vsrt g t m d a) g m (some a) none (some d) [] s
def execVcmpeq (g : Guard) (t : VType) (m : Fin 8) (k : Fin 8) (a b : Fin 16) (s : State) :
    Host.Outcome State Fault Refusal :=
  execV (.vcmpeq g t m k a b) g m (some a) (some b) none [] s
def execVcmpne (g : Guard) (t : VType) (m : Fin 8) (k : Fin 8) (a b : Fin 16) (s : State) :
    Host.Outcome State Fault Refusal :=
  execV (.vcmpne g t m k a b) g m (some a) (some b) none [] s
def execVcmplt (g : Guard) (t : VType) (m : Fin 8) (k : Fin 8) (a b : Fin 16) (s : State) :
    Host.Outcome State Fault Refusal :=
  execV (.vcmplt g t m k a b) g m (some a) (some b) none [] s
def execVcmple (g : Guard) (t : VType) (m : Fin 8) (k : Fin 8) (a b : Fin 16) (s : State) :
    Host.Outcome State Fault Refusal :=
  execV (.vcmple g t m k a b) g m (some a) (some b) none [] s
def execVcvt (g : Guard) (t : VType) (m : Fin 8) (d a : Fin 16) (st : VType) (s : State) :
    Host.Outcome State Fault Refusal :=
  execV (.vcvt g t m d a st) g m (some a) none (some d) [] s
def execVred (g : Guard) (t : VType) (m : Fin 8) (k : Fin 8) (a : Fin 16) (fn : RedFn) (s : State) :
    Host.Outcome State Fault Refusal :=
  execV (.vred g t m k a fn) g m (some a) none none [] s
def execVredx (g : Guard) (t : VType) (m : Fin 8) (k : Fin 8) (a : Fin 16) (fn : RedxFn) (s : State) :
    Host.Outcome State Fault Refusal :=
  execV (.vredx g t m k a fn) g m (some a) none none [] s
def execVscan (g : Guard) (t : VType) (m : Fin 8) (d a : Fin 16) (k : Fin 8) (s : State) :
    Host.Outcome State Fault Refusal :=
  execV (.vscan g t m d a k) g m (some a) none (some d) [k] s
def execVcomp (g : Guard) (t : VType) (m : Fin 8) (d a : Fin 16) (k : Fin 8) (s : State) :
    Host.Outcome State Fault Refusal :=
  execV (.vcomp g t m d a k) g m (some a) none (some d) [] s
def execVexpd (g : Guard) (t : VType) (m : Fin 8) (d a : Fin 16) (k : Fin 8) (s : State) :
    Host.Outcome State Fault Refusal :=
  execV (.vexpd g t m d a k) g m (some a) none (some d) [] s
def execVbcast (g : Guard) (t : VType) (m : Fin 8) (d : Fin 16) (k : Fin 8) (s : State) :
    Host.Outcome State Fault Refusal :=
  execV (.vbcast g t m d k) g m none none (some d) [k] s
def execViota (g : Guard) (t : VType) (m : Fin 8) (d : Fin 16) (k : Fin 8) (s : State) :
    Host.Outcome State Fault Refusal :=
  execV (.viota g t m d k) g m none none (some d) [k] s
def execVany (g : Guard) (t : VType) (m : Fin 8) (k : Fin 8) (a : Fin 16) (s : State) :
    Host.Outcome State Fault Refusal :=
  execV (.vany g t m k a) g m (some a) none none [] s
def execVall (g : Guard) (t : VType) (m : Fin 8) (k : Fin 8) (a : Fin 16) (s : State) :
    Host.Outcome State Fault Refusal :=
  execV (.vall g t m k a) g m (some a) none none [] s
def execVmask (g : Guard) (t : VType) (m : Fin 8) (k : Fin 8) (a : Fin 16) (s : State) :
    Host.Outcome State Fault Refusal :=
  execV (.vmask g t m k a) g m (some a) none none [] s
def execVpopm (g : Guard) (t : VType) (m : Fin 8) (k j : Fin 8) (s : State) :
    Host.Outcome State Fault Refusal :=
  execV (.vpopm g t m k j) g m none none none [] s
def execVrand (g : Guard) (t : VType) (m : Fin 8) (d : Fin 16) (k1 k2 : Fin 8) (s : State) :
    Host.Outcome State Fault Refusal :=
  execV (.vrand g t m d k1 k2) g m none none (some d) [k1, k2] s

end Sys2Proof.Machine
end

