-- ==== Sys2Proof/Machine/Port.lean ====
section
/-! DEFINITION. What an access touches, which banks it is granted (R186), and the visibility of writes (R189). -/

namespace Sys2Proof.Machine

/-! ## What an access touches -/

/-- The byte addresses by which a run of bytes is refused: its first byte, then the start of each further line. -/
def touchesOf (a n : Nat) : List Nat := (linesOf a n).map fun l => max l a

/-- One access per distinct line, in order. -/
def distinctLines : List Nat → List Nat → List Nat
  | [], _ => []
  | a :: as, seen => if seen.contains (a / 64) then distinctLines as seen else a :: distinctLines as (a / 64 :: seen)

/-- The accesses that an operation makes in its cycle, in the order of its entry; VGATH and VSCAT are apart. -/
def AccOp.touches : AccOp → List Nat
  | .load size _ a _ => touchesOf a size
  | .store size a _ _ => touchesOf a size
  | .atom _ a _ _ _ => [a]
  | .hld _ a => [a]
  | .hst a _ _ => [a]
  | .scl _ a => touchesOf a 256
  | .vread v => distinctLines (v.reads.flatMap fun x => touchesOf x.1 x.2) []
  | .vwrite ws _ => distinctLines (ws.flatMap fun w => touchesOf w.addr w.bytes.length) []
  | .gwindow .. => []
  | .dlist _ h _ _ _ _ => touchesOf (hDlist h) (16 * (hNdim h + 1))
  | .engine .. => []
  | .send a _ _ => [a]
  | .recv a _ _ _ => [a]
  | .header .. => []
  | .serve _ w => [w.data.toNat % 2 ^ 21]
  | .portServe _ _ _ w => [w.data.toNat % 2 ^ 21]

/-- The accesses granted before the first that meets a taken bank, one of the operation's own among them, and that one
(R186). -/
def grant (claims : List Nat) : List Nat → List Nat × Option Nat
  | [] => ([], none)
  | a :: as =>
    if claims.contains (bankOf a) then ([], some a)
    else
      let r := grant (bankOf a :: claims) as
      (a :: r.1, r.2)

/-- The words that an operation reads in its cycle, each once (R186, R190). -/
def AccOp.readWords (op : AccOp) : List Nat :=
  (match op with
    | .vread v => v.reads.flatMap fun (x : Nat × Nat) => wordsOf x.1 x.2
    | .scl _ a => wordsOf a 256
    | .dlist _ h _ _ _ _ => wordsOf (hDlist h) (16 * (hNdim h + 1))
    | _ => []).eraseDups

def AccOp.isServe : AccOp → Bool
  | .serve .. | .portServe .. => true
  | _ => false

/-! ## Refusal (R186) -/

def Effect.isPosition : Effect → Bool
  | .agPos .. => true
  | _ => false

/-- What an instruction still has to do is dropped; the advance of its generators stands. -/
def Tile.cancelSeq (t : Tile) (seq : Nat) : Tile :=
  { t with
    accs := t.accs.filter fun a => a.seq ≠ seq
    core := { t.core with lands := t.core.lands.filter fun x => x.seq ≠ seq || x.eff.isPosition } }

/-! ## Visibility of writes (R189) -/

/-- Whether two writes of one visibility cycle share a byte through different ports. -/
def PWrite.clashes (x y : PWrite) : Bool := x.mport != y.mport && x.word == y.word && (x.mask &&& y.mask) != 0

/-- Inserts into an ascending list without repeats. -/
def insertAsc (x : Nat) : List Nat → List Nat
  | [] => [x]
  | y :: ys => if x < y then x :: y :: ys else if x = y then y :: ys else y :: insertAsc x ys

/-- What stands of the writes of one visibility cycle, and the first refused write of each instruction that has one: the
instructions in issue order, each up to its first access that shares a byte with a write that stands (R186, R189). -/
def settleWrites (due : List PWrite) : List PWrite × List PWrite :=
  (due.foldr (fun w acc => insertAsc w.seq acc) []).foldl (fun acc n =>
    let mine := due.filter (·.seq == n)
    match mine.find? fun w => acc.1.any w.clashes with
    | none => (acc.1 ++ mine, acc.2)
    | some w => (acc.1 ++ mine.takeWhile (fun y => y.addr != w.addr), acc.2 ++ [w])) ([], [])

/-- Writes whose visibility cycle has come become visible; of two that share a byte the later-issued is refused, and
what its instruction still has to do with it (R186, R189). DEDUCED, log entry 19. -/
def State.commitWrites (s : State) (i : Nat) : State :=
  match s.tile? i with
  | none => s
  | some t =>
    let e := s.tileEnv t
    let due := t.wbuf.filter fun w => e.reached w.due
    let (stand, refused) := settleWrites due
    let sp := (due.filter stand.contains).foldl (fun m w => w.merge m) t.sp
    let gone := refused.map (·.seq)
    let s1 := s.setTile i { t with sp := sp, wbuf := t.wbuf.filter fun w => !e.reached w.due && !gone.contains w.seq }
    refused.foldl (fun s w =>
      (s.faultTile i 0x0203 (word w.addr) w.slot e.scy).modTile i fun t => (t.cancelSeq w.seq).cancelM w.seq) s1

end Sys2Proof.Machine
end

