-- ==== Sys2Proof/Machine/Copy.lean ====
section
/-! DEFINITION. The C class and the copy engines (R223 to R248): descriptors and their checks, windows, outstanding
commands, shadows, and the landing of commands and streaming transfers. -/

namespace Sys2Proof.Machine

/-! ## Descriptors (R223, R224, R227) -/

/-- One entry of a dimension list from its 16 bytes; `outer` is false for entry 0, `loc` marks CPYLOC. -/
def dimEntry (loc outer : Bool) (bs : List Byte) : Option Dim :=
  let ext := leNat (bs.take 4)
  let sstr := toSigned 32 (leNat ((bs.drop 4).take 4))
  let b := leNat ((bs.drop 8).take 8)
  let bstr := if loc then toSigned 22 (b % 2 ^ 22) else toSigned 48 (b % 2 ^ 48)
  let reserved := b / 2 ^ 48 != 0 || (loc && b / 2 ^ 22 != 0)
  if reserved then none
  else if outer then (if ext = 0 ∨ 65535 < ext then none else some ⟨ext, sstr, bstr⟩)
  else if ext = 0 ∨ 2 ^ 21 < ext ∨ sstr ≠ 0 ∨ b ≠ 0 then none
  else some ⟨ext, 0, 0⟩

/-- The entries of a list, innermost first; none where check 4 of R226 fails. -/
def dimList (loc : Bool) : (n : Nat) → (outer : Bool) → List Byte → Option (List Dim)
  | 0, _, _ => some []
  | n + 1, outer, bs =>
    match dimEntry loc outer bs, dimList loc n true (bs.drop 16) with
    | some d, some ds => some (d :: ds)
    | _, _ => none

/-- Total bytes of a descriptor. -/
def dimTotal (ds : List Dim) : Nat := (ds.map (·.ext)).prod

/-- The run length. -/
def runLen : List Dim → Nat
  | [] => 0
  | d :: _ => d.ext

/-- The offsets of the runs in visit order, the last dimension outermost: scratchpad side and bulk side. -/
def offsets : List Dim → List (Int × Int)
  | [] => [(0, 0)]
  | d :: ds => (offsets ds).flatMap fun o => (List.range d.ext).map fun (i : Nat) =>
      (o.1 + (i : Int) * d.sstr, o.2 + (i : Int) * d.bstr)

/-- The runs of a descriptor. -/
def runs (ds : List Dim) : List (Int × Int) := offsets (ds.drop 1)

/-- The lowest and the highest byte offset that the runs touch with the strides given. -/
def spanOf (f : Dim → Int) (ds : List Dim) : Int × Int :=
  (ds.drop 1).foldl (fun (acc : Int × Int) d =>
    let reach := ((d.ext : Int) - 1) * f d
    (acc.1 + min 0 reach, acc.2 + max 0 reach)) (0, (runLen ds : Int) - 1)

def scrSpan (base : Int) (ds : List Dim) : Int × Int :=
  let r := spanOf (·.sstr) ds
  (base + r.1, base + r.2)

def bulkSpan (base : Int) (ds : List Dim) : Int × Int :=
  let r := spanOf (·.bstr) ds
  (base + r.1, base + r.2)

/-- Whether two closed intervals meet. -/
def meets (x y : Int × Int) : Bool := x.1 ≤ y.2 && y.1 ≤ x.2

/-! ## Checks over pages (R226, R227) -/

/-- The window map of a tile: the pages of its launch (R330). -/
def State.pagesOf (s : State) (t : Tile) : List Page :=
  match s.region? t.region with
  | none => []
  | some r => ((s.launches.find? fun l => l.id == r.launch).map fun l => l.img.pages).getD []

/-- The lowest VA of an interval that satisfies a bad case: no page (the case of none) or a page refused. -/
def lowestBad (pages : List Page) (bad : Option Page → Bool) : (fuel : Nat) → (lo hi : Int) → Option Int
  | 0, _, _ => none
  | fuel + 1, lo, hi =>
    if hi < lo then none
    else
      match (if lo < 0 then none else pageOf pages lo.toNat) with
      | none => if bad none then some lo else none
      | some p => if bad (some p) then some lo else lowestBad pages bad fuel (p.va + p.size : Nat) hi

/-- Check 6: the lowest VA that no entry covers. -/
def missedVa (pages : List Page) (iv : Int × Int) : Option Int :=
  lowestBad pages (fun p => p.isNone) (pages.length + 1) iv.1 iv.2

/-- Check 7: the lowest VA whose page lacks the permission. -/
def refusedVa (pages : List Page) (wr : Bool) (iv : Int × Int) : Option Int :=
  lowestBad pages (fun p => p.any fun x => if wr then x.ro else !x.rd) (pages.length + 1) iv.1 iv.2

/-! ## Commands and windows -/

def CmdKind.isStream : CmdKind → Bool
  | .fill _ | .drain _ => true
  | _ => false

/-- Places of the copy engine in use (R231). -/
def Tile.outstanding (t : Tile) : Nat :=
  (t.cmds.filter fun c => !c.kind.isStream).length + (t.wins.toList.filter fun w => w.mode == .streaming).length

def Tile.modWin (t : Tile) (w : Fin 16) (f : Window → Window) : Tile := { t with wins := t.wins.set w (f (t.wins.get w)) }

/-- The window after a command of some bytes has issued on it (R228, R229). -/
def Window.charge (w : Window) (n : Nat) : Window :=
  { w with mode := if w.mode = .free then .copy else w.mode, pend := w.pend + n }

/-- A free window, which keeps a pending check. -/
def Window.freed (w : Window) : Window := { Window.reset with chk := w.chk, chkPar := w.chkPar, raised := w.raised }

/-- The window once bytes have landed: a copy window whose count reaches zero is free (R229). -/
def Window.credit (w : Window) (n : Nat) : Window :=
  let x := { w with pend := w.pend - n }
  if x.mode == .copy && x.pend == 0 then x.freed else x

/-- Whether a window check is satisfied (R229, R232). -/
def Window.satisfied (w : Window) : Bool :=
  match w.mode with
  | .free => true
  | .copy => w.pend == 0
  | .streaming => w.st.get w.chkPar == if w.out then .empty else .ready

/-- Starts transfer k of a streaming window in its slot (R232). -/
def Tile.startTransfer (t : Tile) (w : Fin 16) (k phase ord ready : Nat) : Tile :=
  let x := t.wins.get w
  let p : Fin 2 := Fin.ofNat 2 ((hPar x.handle).val + k)
  let total := dimTotal x.dims
  let cmd : Cmd :=
    { kind := if x.out then .drain p else .fill p, win := w, phase := phase, ord := ord, slot := x.slot,
      iss := x.iss, sbase := (hBase x.handle : Int) + (if p = 1 then x.s1off else 0),
      bva := (hBva x.handle : Int) + (k : Int) * x.adv, dims := x.dims, total := total, ready := ready }
  { t.modWin w fun x =>
      { x with st := x.st.set p (if x.out then .drain else .fill), done := x.done + 1, pend := x.pend + total } with
    cmds := t.cmds ++ [cmd] }

/-- Enters a command in the queue of the engine and on its window. -/
def Tile.startCmd (t : Tile) (c : Cmd) : Tile :=
  { t.modWin c.win fun w => w.charge c.total with cmds := t.cmds ++ [c] }

/-- A streaming window from its STAGE (R232, R244). -/
def Tile.openWindow (t : Tile) (h : BitVec 256) (ds : List Dim) (slot iss : Nat) (c a : Word) (phase ord ready : Nat) : Tile :=
  let w := hWin h
  let out := bitOf c.toNat 22
  let n := bitsOf c.toNat 32 16
  let t1 := t.modWin w fun x =>
    { x with mode := .streaming, cp := hPar h, st := Vector.replicate 2 .empty, out := out, done := 0, released := 0,
             pend := 0, handle := h, dims := ds, slot := slot, iss := iss, n := n, adv := a.toInt, s1off := bitsOf c.toNat 0 22 }
  if out then t1
  else
    let t2 := t1.startTransfer w 0 phase ord ready
    if 2 ≤ n then t2.startTransfer w 1 phase ord ready else t2

/-! ## What the checks of the list answer (R226) -/

/-- The limit of a command's total (R224). DEDUCED, log entry 30. -/
def totalLimit : Instr → Nat
  | .cfill .. => 2 ^ 24
  | _ => 2 ^ 21

def isStage : Instr → Bool
  | .stage .. => true
  | _ => false

def isLoc : Instr → Bool
  | .cpyloc .. => true
  | _ => false

def isFill : Instr → Bool
  | .cfill .. => true
  | _ => false

/-- The scratchpad intervals that check 5 tests (R226, R242 to R244). -/
def scrChecked (i : Instr) (h hs : BitVec 256) (c : Word) (ds : List Dim) : List (Int × Int) :=
  match i with
  | .cfill .. => []
  | .cpyloc .. => [scrSpan (hBase h) ds, bulkSpan (hBase hs) ds]
  | .stage .. => [scrSpan (hBase h) ds, scrSpan ((hBase h : Int) + bitsOf c.toNat 0 22) ds]
  | _ => [scrSpan (hBase h) ds]

/-- The bulk interval that checks 6 and 7 test, and whether the command writes it. -/
def bulkChecked (i : Instr) (h : BitVec 256) (c a : Word) (ds : List Dim) : Option ((Int × Int) × Bool) :=
  let iv := bulkSpan (hBva h) ds
  match i with
  | .cpyloc .. => none
  | .cpyin .. => some (iv, false)
  | .stage .. =>
    let far := ((bitsOf c.toNat 32 16 : Int) - 1) * a.toInt
    some ((iv.1 + min 0 far, iv.2 + max 0 far), bitOf c.toNat 22)
  | _ => some (iv, true)

/-- Checks 8 and 9 on a window: the copy queue, the window's refusal, its count. -/
def checkRoom (slot : Nat) (t : Tile) (w : Fin 16) (stage : Bool) (add : Nat) (faddr : Word) : Option Trap :=
  let x := t.wins.get w
  if 16 ≤ t.outstanding ∨ (if stage then x.mode ≠ .free else x.mode = .streaming) then
    some ⟨0x0307, faddr, slot⟩
  else if 2 ^ 28 - 1 < x.pend + add then some ⟨0x0305, faddr, slot⟩
  else none

/-- Check 5 on one interval. -/
def checkSpan (slot : Nat) (iv : Int × Int) : Option Trap :=
  if iv.1 < 0 ∨ (Config.spSize : Int) ≤ iv.1 then some ⟨0x0301, BitVec.ofInt 64 iv.1, slot⟩
  else if (Config.spSize : Int) ≤ iv.2 then some ⟨0x0301, BitVec.ofInt 64 iv.2, slot⟩
  else none

/-- Checks 4 to 9 of a command on the list as read: the dimensions, or the fault. -/
def checkCopy (slot : Nat) (t : Tile) (pages : List Page) (i : Instr) (h hs : BitVec 256) (c a : Word)
    (list : List Byte) : Except Trap (List Dim) :=
  let base := word (hBase h)
  match dimList (isLoc i) (hNdim h + 1) false list with
  | none => .error ⟨0x0404, word (hDlist h), slot⟩
  | some ds =>
    if totalLimit i < dimTotal ds then .error ⟨0x0404, word (hDlist h), slot⟩
    else
      match firstFault ((scrChecked i h hs c ds).map (checkSpan slot)) with
      | some f => .error f
      | none =>
        let pageFault : Option Trap :=
          match bulkChecked i h c a ds with
          | none => none
          | some (iv, wr) =>
            match missedVa pages iv, refusedVa pages wr iv with
            | some v, _ => some ⟨0x0303, BitVec.ofInt 64 v, slot⟩
            | none, some v => some ⟨0x0304, BitVec.ofInt 64 v, slot⟩
            | none, none => none
        let add := if isStage i then 0 else dimTotal ds
        match firstFault [pageFault, checkRoom slot t (hWin h) (isStage i) add base] with
        | some f => .error f
        | none => .ok ds

/-- The kind of the command that an instruction issues. -/
def cmdKind (i : Instr) (hs : BitVec 256) (a : Word) : CmdKind :=
  match i with
  | .cpyin .. => .cpyin
  | .cpyout .. => .cpyout
  | .cpyloc .. => .cpyloc (hBase hs)
  | _ => .cfill a

/-- Enters a checked command or opens a checked window. -/
def Tile.begin (t : Tile) (i : Instr) (h hs : BitVec 256) (c a : Word) (ds : List Dim) (x : Access)
    (phase ready : Nat) : Tile :=
  if isStage i then t.openWindow h ds x.slot x.iss c a phase x.seq ready
  else t.startCmd
    { kind := cmdKind i hs a, win := hWin h, phase := phase, ord := x.seq, slot := x.slot, iss := x.iss,
      sbase := hBase h, bva := hBva h, dims := ds, total := dimTotal ds, ready := ready }

/-! ## SADV and CATOM -/

/-- SADV (R245), at its place among the C slots of its bundle. DESIGN CHOICE, log entry 40. -/
def Tile.advance (t : Tile) (w : Fin 16) (p : Fin 2) (slot phase ord ready : Nat) : Except Trap Tile :=
  let x := t.wins.get w
  let base := hBase x.handle
  if x.mode ≠ .streaming then .error ⟨0x0307, Config.sadvBase w.val, slot⟩
  else if p ≠ x.cp then .error ⟨0x0201, 0, slot⟩
  else if x.released = x.n then .error ⟨0x0307, word base, slot⟩
  else if x.st.get p ≠ (if x.out then .empty else .ready) then
    .error ⟨0x0205, word (base + (if p = 1 then x.s1off else 0)), slot⟩
  else
    let flip (y : Window) : Window := { y with cp := 1 - p, released := y.released + 1 }
    if x.out then .ok ((t.startTransfer w x.released phase ord ready).modWin w flip)
    else
      let t1 := t.modWin w fun y => { flip y with st := y.st.set p .empty }
      if x.released + 2 < x.n then .ok (t1.startTransfer w (x.released + 2) phase ord ready)
      else if x.released + 1 = x.n then .ok (t1.modWin w Window.freed)
      else .ok t1

def atomOfCode : Nat → Option AtomOp
  | 0 => some .add
  | 1 => some .min
  | 2 => some .max
  | 3 => some .and
  | 4 => some .or
  | 5 => some .xor
  | 6 => some .swap
  | _ => none

/-- The checks of CATOM on its VA and control word (R247): the command, or the fault; `opFault` is that of a bad word.
DEDUCED, log entry 32. -/
def checkCatom (m : Module) (t : Tile) (pages : List Page) (slot : Nat) (opFault : Trap) (v k : Word) :
    Except Trap (Fin 16 × AtomOp × Option Nat) :=
  let kn := k.toNat
  let ret := bitsOf kn 8 22
  let re := bitOf kn 3
  let at_ (c : Nat) (a : Word) : Except Trap (Fin 16 × AtomOp × Option Nat) := .error ⟨c, a, slot⟩
  match atomOfCode (kn % 8) with
  | none => .error opFault
  | some op =>
    if kn / 2 ^ 30 ≠ 0 then .error opFault
    else if v.toNat % 8 ≠ 0 then at_ 0x0302 v
    else
      match pageOf pages v.toNat with
      | none => at_ 0x0303 v
      | some p =>
        if p.ro || (re && p.phased) || (re && !p.rd) || (p.kind == 2 && !(if p.hc then m.hostAtomOk op else m.hostAtoms)) then at_ 0x0304 v
        else if re && Config.spSize ≤ ret + 7 then at_ 0x0301 (word ret)
        else if re && ret % 8 != 0 then at_ 0x0302 (word ret)
        else
          let w : Fin 16 := Fin.ofNat 16 (bitsOf kn 4 4)
          match checkRoom slot t w false 8 v with
          | some f => .error f
          | none => .ok (w, op, if re then some ret else none)

/-- A CATOM at its place among the C slots of its bundle. -/
def State.catomNow (s : State) (t : Tile) (slot iss phase ord : Nat) (opFault : Trap) (v o k : Word) :
    Except Trap Tile :=
  match checkCatom s.mod_ t (s.pagesOf t) slot opFault v k with
  | .error f => .error f
  | .ok (w, op, ret) =>
    .ok (t.startCmd
      { kind := .catom op o ret, win := w, phase := phase, ord := ord, slot := slot, iss := iss,
        sbase := (ret.getD 0 : Nat), bva := (v.toNat : Nat), dims := [⟨8, 0, 0⟩], total := 8, ready := s.wcy + s.timing.land })

/-! ## Issue -/

/-- The phase of a command that issues now: every PUBLISH that the tile has issued and its region has not closed yet, one
earlier in the bundle's slot order among them, has ended a phase (R236). -/
def State.phaseNow (s : State) (t : Tile) : Nat :=
  let ended := s.syncs.filter fun q => q.kind == .publish && (match s.focus with
    | .tile i => q.tile == i
    | .lantern _ => false)
  ((s.region? t.region).map (·.bphase)).getD 0 + ended.length

/-- Check 2 of R226. -/
def checkList (slot : Nat) (h : BitVec 256) : Option Trap :=
  let d := hDlist h
  if 9 < hNdim h + 1 then some ⟨0x0404, word d, slot⟩
  else if d % 8 ≠ 0 then some ⟨0x0302, word d, slot⟩
  else if Config.spSize ≤ d + 16 * (hNdim h + 1) - 1 then some ⟨0x0301, word d, slot⟩
  else none

/-- The handle with BVA' for BVA: during replay with PEN the patch slot is added (R224, R278). DEDUCED, log entry 51. -/
def patchBva (slot : Nat) (replay : Bool) (pd : List (Nat × Word)) (h : BitVec 256) : Except Trap (BitVec 256) :=
  if !replay || !hPen h then .ok h
  else
    match pd.find? fun x => x.1 == hPslot h with
    | none => .error ⟨0x0703, word (hBva h), slot⟩
    | some (_, d) =>
      let b := (word (hBva h) + d).toNat
      if 2 ^ 48 ≤ b then .error ⟨0x0703, word (hBva h), slot⟩ else .ok (hSet h 12 b)

/-- The issue of CPYIN, CPYOUT, CPYLOC, STAGE and CFILL: the common handle checks, those of the instruction's own words
(`pre`) and of the list's place, then the read of the list at the bank cycle (R142, R225, R226). -/
def issueCopy (i : Instr) (g : Guard) (h hs : Fin 32) (srcs : List SOp) (pre : List SReg → State → Option Trap)
    (s : State) : Host.Outcome State Fault Refusal :=
  issue (useT i g (srcs.map fun x => (x, true)) []) s fun vs s =>
    match s.focusTile? with
    | none => .ok s
    | some t =>
      let x := t.handles.get h
      let y := t.handles.get hs
      match firstFault [checkHandle s.slot x, checkHandle s.slot y, pre vs s, checkList s.slot x.bits] with
      | some f => .error f
      | none =>
        match patchBva s.slot s.imms.isSome t.rep.pd x.bits with
        | .error f => .error f
        | .ok hb => .ok (s.pushAccess s.env.bankDue (.dlist i hb y.bits (srcAt vs 0) (srcAt vs 1) (s.phaseNow t)))

def execCnop (_g : Guard) (s : State) : Host.Outcome State Fault Refusal := issueNop (some .tile) s

def execCpyin (g : Guard) (h : Fin 32) (s : State) : Host.Outcome State Fault Refusal :=
  issueCopy (.cpyin g h) g h h [] (fun _ _ => none) s

def execCpyout (g : Guard) (h : Fin 32) (s : State) : Host.Outcome State Fault Refusal :=
  issueCopy (.cpyout g h) g h h [] (fun _ _ => none) s

def execCpyloc (g : Guard) (hd hs : Fin 32) (s : State) : Host.Outcome State Fault Refusal :=
  issueCopy (.cpyloc g hd hs) g hd hs [] (fun _ _ => none) s

def execCfill (g : Guard) (h : Fin 32) (a : SOp) (s : State) : Host.Outcome State Fault Refusal :=
  issueCopy (.cfill g h a) g h h [a] (fun _ _ => none) s

/-- The words C and A of STAGE (R244). -/
def stageBad (c a : Word) : Bool :=
  let n := c.toNat
  n / 2 ^ 48 != 0 || bitsOf n 23 9 != 0 || bitsOf n 32 16 == 0 || bitsOf n 0 22 % 64 != 0 ||
    a.toInt < -(2 ^ 47 : Nat) || ((2 ^ 47 : Nat) : Int) ≤ a.toInt

def execStage (g : Guard) (h : Fin 32) (c a : SOp) (s : State) : Host.Outcome State Fault Refusal :=
  issueCopy (.stage g h c a) g h h [c, a]
    (fun vs s => if stageBad (srcAt vs 0).val (srcAt vs 1).val then some s.badOperand else none) s

/-- Whether a command of the same bundle still waits for its list, so that this one waits behind it (R231). -/
def Tile.waitsBehind (t : Tile) (scy : Nat) : Bool :=
  t.accs.any fun a => match a.op with
    | .dlist .. => a.iss == scy
    | _ => false

/-- SADV (R245). -/
def execSadv (g : Guard) (w : Fin 16) (p : Fin 2) (s : State) : Host.Outcome State Fault Refusal :=
  issue (useT (.sadv g w p) g [] []) s fun _ s =>
    match s.focusTile? with
    | none => .ok s
    | some t =>
      if t.waitsBehind s.env.scy then
        .ok (s.pushAccess s.env.bankDue (.engine (.sadv g w p) [] (s.slotAddr t.core) (s.phaseNow t)))
      else
        match t.advance w p s.slot (s.phaseNow t) t.core.seq (s.wcy + s.timing.land) with
        | .error f => .error f
        | .ok t1 => .ok (s.modFocus fun _ => t1)

/-- CATOM (R247). Its three words are the sources; the checks need no list, but wait for the slot before it (R231). -/
def execCatom (g : Guard) (v o c : SOp) (s : State) : Host.Outcome State Fault Refusal :=
  issue (useT (.catom g v o c) g [(v, true), (o, true), (c, true)] []) s fun vs s =>
    match s.focusTile? with
    | none => .ok s
    | some t =>
      if t.waitsBehind s.env.scy then
        .ok (s.pushAccess s.env.bankDue (.engine (.catom g v o c) (vs.map (·.val)) (s.slotAddr t.core) (s.phaseNow t)))
      else
        match s.catomNow t s.slot s.env.scy (s.phaseNow t) t.core.seq s.badOperand (srcAt vs 0).val (srcAt vs 1).val
            (srcAt vs 2).val with
        | .error f => .error f
        | .ok t1 => .ok (s.modFocus fun _ => t1)

/-- Notes a synchronising slot of the issuing tile, for the comparison across its region (R246). -/
def State.pushSync (s : State) (k : SyncKind) : State :=
  match s.focus with
  | .tile i => { s with syncs := s.syncs ++ [⟨i, k, s.env.scy, s.slot, false⟩] }
  | .lantern _ => s

/-- PUBLISH (R236, R246): the region's publish logic acts once every tile has issued. -/
def execPublish (g : Guard) (s : State) : Host.Outcome State Fault Refusal :=
  issue (useT (.publish g) g [] []) s fun _ s => .ok (s.pushSync .publish)

/-! ## Reads and writes of the engines -/

/-- The words partly covered by n bytes at a. -/
def partWords (a n : Nat) : List Nat := (wordsOf a n).filter fun w => !(a ≤ 8 * w && 8 * w + 8 ≤ a + n)

/-- The read that a partial write of scratchpad words makes (R191): corrections counted, detections deferred. -/
def State.spMerge (s : State) (i a n slot fcyc : Nat) : State := s.checkWords i (partWords a n) slot fcyc

/-- A write of the copy party into scratchpad (R187, R189, R242). -/
def State.spWrite (s : State) (i a slot fcyc : Nat) (bs : List Byte) (ps : List Bool) : State :=
  (s.spMerge i a bs.length slot fcyc).modTile i fun t => { t with sp := writeMarked t.sp a bs ps }

/-- The pieces of n bytes at a VA that lie in one page each. -/
def splitPages (pages : List Page) : (fuel va n : Nat) → List (Page × Nat × Nat)
  | 0, _, _ => []
  | fuel + 1, va, n =>
    if n = 0 then []
    else
      match pageOf pages va with
      | none => []
      | some p =>
        let k := min n (p.va + p.size - va)
        (p, va, k) :: splitPages pages fuel (va + k) (n - k)

/-- A poisoned delivery from bulk memory is deferred with the word's VA; a slice is named (R362, R363). -/
def State.deferBulk (s : State) (i slot fcyc : Nat) (p : Page) (va a w : Nat) : State :=
  let loc : Option Loc := if p.kind = 2 then none else some ⟨2, 0, 0, 8 * w / 2 ^ 32⟩
  s.deferFaultAt i 0x0306 (BitVec.ofInt 64 ((va : Int) + 8 * w - a)) slot fcyc loc

/-- One byte of a shadow run, if the run holds the VA. -/
def ShadowRun.at_ (r : ShadowRun) (va : Nat) : Option Byte :=
  if r.va ≤ va ∧ va < r.va + r.data.length then some (r.data.getD (va - r.va) 0) else none

/-- Whether a word is poisoned once a run is laid over it: one covered wholly takes the poison of the run's bytes, one covered
in part stays poisoned or becomes so (R191, R242). -/
def ShadowRun.poisonWord (r : ShadowRun) (w : Nat) (was : Bool) : Bool :=
  let js := (List.range 8).filter fun j => (r.at_ (8 * w + j)).isSome
  (was && js.length != 8) || js.any fun j => r.poison.getD (8 * w + j - r.va) false

/-- Whether a word of a shadow is poisoned under the runs given (R242). -/
def shadowPoison (rs : List ShadowRun) (w : Nat) : Bool := rs.foldl (fun was r => r.poisonWord w was) false

/-- The byte at a VA under the runs given, the last one prevailing, with the poison of its word of the shadow; one that no run
holds is the one given (R235). That it keeps its own mark beside poisoned bytes of the shadow is DEDUCED, log entry 108. -/
def overlayByte (rs : List ShadowRun) (va : Nat) (b : Byte × Bool) : Byte × Bool :=
  match rs.foldl (fun acc r => (r.at_ va).or acc) none with
  | none => b
  | some x => (x, shadowPoison rs (va / 8))

/-- Reads bulk bytes as the engine of tile i delivers them, its own runs over a phased page (R235, R240, R242). A byte that
no run holds is DEDUCED, log entry 108. -/
def State.bulkRead (s : State) (i slot fcyc slice : Nat) (pages : List Page) (rs : List ShadowRun) (va n : Nat) :
    State × List (Byte × Bool) :=
  (splitPages pages (pages.length + 1) va n).foldl (fun (acc : State × List (Byte × Bool)) x =>
    let (p, v, k) := x
    let pl := p.place v
    let (s1, bs, ps, bad) := acc.1.readPlace pl slice k
    let s2 := match bad with
      | [] => s1
      | w :: _ => s1.deferBulk i slot fcyc p v (pl.phys slice).2 w
    let cells := bs.zip ps
    (s2, acc.2 ++ (if p.phased then (List.range k).map fun j => overlayByte rs (v + j) (cells.getD j (0, false))
      else cells))) (s, [])

/-- Adds a run to the shadow of a tile (R235). Runs that meet land in issue order (R233), which is their order in the list. -/
def Tile.addShadow (t : Tile) (phase ord slot iss va : Nat) (bs : List Byte) (ps : List Bool) : Tile :=
  { t with shadow := t.shadow ++ [⟨phase, ord, slot, iss, va, bs, ps⟩] }

/-- The runs of a tile's shadow of a phase. -/
def Tile.shadowOf (t : Tile) (n : Nat) : List ShadowRun := t.shadow.filter fun r => r.phase == n

/-- Writes bulk bytes for tile i: the shadow for a phased page, the frame for a host-coherent one (R233, R240). -/
def State.bulkWrite (s : State) (i slot fcyc slice phase ord : Nat) (pages : List Page) (va : Nat)
    (cells : List (Byte × Bool)) : State :=
  ((splitPages pages (pages.length + 1) va cells.length).foldl (fun (acc : State × List (Byte × Bool)) x =>
    let (p, v, k) := x
    let part := acc.2.take k
    let bs := part.map (·.1)
    let ps := part.map (·.2)
    let s0 := acc.1
    let s1 :=
      if p.phased then s0.modTile i fun t => t.addShadow phase ord slot fcyc v bs ps
      else
        let pl := p.place v
        let (host, a) := pl.phys slice
        let m := if host then s0.host else s0.dram
        let s1 := match (partWords a k).filter fun w => (m.mark w).err == .uncorrectable with
          | [] => s0
          | w :: _ => s0.deferBulk i slot fcyc p v a w
        s1.writePlace pl bs ps
    (s1, acc.2.drop k)) (s, cells)).1

/-! ## Landing -/

/-- The scratchpad bytes a command writes, as an interval. -/
def Cmd.scrDest (c : Cmd) : Option (Int × Int) :=
  match c.kind with
  | .cpyin | .fill _ | .cpyloc _ => some (scrSpan c.sbase c.dims)
  | .catom _ _ (some _) => some (c.sbase, c.sbase + 7)
  | _ => none

/-- The bulk bytes a command writes. -/
def Cmd.bulkDest (c : Cmd) : Option (Int × Int) :=
  match c.kind with
  | .cpyout | .drain _ | .cfill _ | .catom .. => some (bulkSpan c.bva c.dims)
  | _ => none

/-- The bulk bytes a command reads. -/
def Cmd.bulkSrc (c : Cmd) : Option (Int × Int) :=
  match c.kind with
  | .cpyin | .fill _ => some (bulkSpan c.bva c.dims)
  | _ => none

def bothMeet : Option (Int × Int) → Option (Int × Int) → Bool
  | some x, some y => meets x y
  | _, _ => false

/-- Whether an earlier command of the tile must land first (R233, R235). -/
def Cmd.waitsFor (c y : Cmd) : Bool :=
  bothMeet c.scrDest y.scrDest || bothMeet c.bulkDest y.bulkDest || bothMeet c.bulkSrc y.bulkDest

/-- Whether the engine may land a command now: no earlier one must land first, and a read of a phase waits until the phases
before it are closed and their publishes are propagated (R236). -/
def State.mayLand (s : State) (t : Tile) (c : Cmd) : Bool :=
  let held := c.bulkSrc.isSome && (match s.region? t.region with
    | some r => r.bphase < c.phase || r.publishes.any fun p => p.phase < c.phase
    | none => false)
  !held && t.cmds.all fun y => !(y.ord < c.ord && c.waitsFor y)

/-- One run of a command of tile i: scratchpad address and VA. That a run of CPYLOC is read whole before any byte of it is
written is DEDUCED, log entry 108. -/
def State.landRun (s : State) (i : Nat) (t : Tile) (pages : List Page) (c : Cmd) (sa ba : Int) : State :=
  let n := runLen c.dims
  let slice := t.site
  match c.kind with
  | .cpyin | .fill _ =>
    let rs := (t.shadowOf c.phase).filter fun r => r.ord < c.ord
    let (s1, cells) := s.bulkRead i c.slot c.iss slice pages rs ba.toNat n
    s1.spWrite i sa.toNat c.slot c.iss (cells.map (·.1)) (cells.map (·.2))
  | .cpyout | .drain _ =>
    match s.tile? i with
    | none => s
    | some u =>
      let ps := (List.range n).map fun j => u.sp.bytePoison (sa.toNat + j)
      let (s1, bs, _) := s.spRead i sa.toNat n c.slot c.iss
      s1.bulkWrite i c.slot c.iss slice c.phase c.ord pages ba.toNat (bs.zip ps)
  | .cpyloc src =>
    match s.tile? i with
    | none => s
    | some u =>
      let a := ((src : Int) + ba).toNat
      let ps := (List.range n).map fun j => u.sp.bytePoison (a + j)
      let (s1, bs, _) := s.spRead i a n c.slot c.iss
      s1.spWrite i sa.toNat c.slot c.iss bs ps
  | .cfill pattern =>
    let cell (j : Nat) : Byte × Bool := (BitVec.ofNat 8 (pattern.toNat / 256 ^ (j % 8)), false)
    s.bulkWrite i c.slot c.iss slice c.phase c.ord pages ba.toNat ((List.range n).map cell)
  | .catom op operand ret =>
    match pageOf pages ba.toNat with
    | none => s
    | some p =>
      if p.phased then s.modTile i fun t => { t with catoms := t.catoms ++ [⟨c.phase, c.ord, c.slot, c.iss, ba.toNat, op, operand⟩] }
      else
        let pl := p.place ba.toNat
        let (host, a) := pl.phys 0
        let m := if host then s.host else s.dram
        let s0 := match m.uncorrectables a 8 with
          | [] => s
          | w :: _ => s.deferBulk i c.slot c.iss p ba.toNat a w
        let (s1, old, bad) := s0.atomPlace pl op operand 0 false
        match ret with
        | none => s1
        | some r => s1.spWrite i r c.slot c.iss (leBytes 8 old.toNat) (List.replicate 8 bad)

/-- The window once a command has landed wholly (R228, R229, R232). -/
def Window.landed (w : Window) (c : Cmd) : Window :=
  match c.kind with
  | .fill p => { w with st := w.st.set p .ready, pend := w.pend - c.total }
  | .drain p =>
    let x := { w with st := w.st.set p .empty, pend := w.pend - c.total }
    if x.released == x.n && x.st.all (· == .empty) then x.freed else x
  | _ => w.credit c.total

/-- Lands a command wholly: its runs in visit order, then its window (R224, R233, R243). -/
def State.landCmd (s : State) (i : Nat) (c : Cmd) : State :=
  match s.tile? i with
  | none => s
  | some t =>
    let pages := s.pagesOf t
    let s1 := (runs c.dims).foldl (fun s r =>
      match c.kind with
      | .cpyloc _ => s.landRun i t pages c (c.sbase + r.1) r.2
      | _ => s.landRun i t pages c (c.sbase + r.1) (c.bva + r.2)) s
    s1.modTile i fun t =>
      { t.modWin c.win fun w => w.landed c with
        cmds := t.cmds.filter fun y => !(y.ord == c.ord && y.kind == c.kind) }

/-- Lands the command of tile i that a test picks, if the engine may land it now. -/
def State.landIf (s : State) (i : Nat) (p : Cmd → Bool) : State :=
  match s.tile? i with
  | none => s
  | some t =>
    match t.cmds.find? p with
    | none => s
    | some c => if s.mayLand t c then s.landCmd i c else s

/-- COPY_LANDING (R233): the command of tile t that issued as its slot issue k lands. -/
def execCopyLanding (t k : Nat) (s : State) : Host.Outcome State Fault Refusal :=
  .next (s.landIf t fun c => c.ord == k && !c.kind.isStream)

/-- SLOT_FILL_LANDS (R232). -/
def execSlotFillLands (t : Nat) (w : Fin 16) (p : Fin 2) (s : State) : Host.Outcome State Fault Refusal :=
  .next (s.landIf t fun c => c.win == w && c.kind == .fill p)

/-- SLOT_DRAIN_LANDS (R232). -/
def execSlotDrainLands (t : Nat) (w : Fin 16) (p : Fin 2) (s : State) : Host.Outcome State Fault Refusal :=
  .next (s.landIf t fun c => c.win == w && c.kind == .drain p)

end Sys2Proof.Machine
end

