-- ==== Sys2Proof/Machine/Link.lean ====
section
/-! DEFINITION. The wafer links (R265, R266, R324, R389 to R392): flits, the sender's window, the receive buffer, the
replay filter of remote atomics, and the link events. -/

namespace Sys2Proof.Machine

/-! ## Ports and home tiles (R324) -/

/-- Logical rows of a site: the rows present in its live map (R326, R327). -/
def State.rowsOf (s : State) (site : Nat) : Nat := popCount 16 (s.live.toList.getD site .full).lrow.toNat

/-- The port whose home tile stands at logical (tx, ty) of a site. -/
def homePort (site tx ty rows : Nat) : Option Nat :=
  let cx := siteX site
  let cy := siteY site
  if cy = 7 ∧ 1 ≤ cx ∧ cx ≤ 8 ∧ ty + 1 = rows ∧ (tx = 4 ∨ tx = 8) then some (2 * (cx - 1) + (tx / 4 - 1))
  else if cx = 0 ∧ tx = 0 ∧ ty = 4 then some (16 + cy)
  else if cx = 9 ∧ tx = 15 ∧ ty = 4 then some (24 + cy)
  else none

def State.portOf (s : State) (t : Tile) : Option (Fin 32) :=
  match homePort t.site t.tx t.ty (s.rowsOf t.site) with
  | some p => if h : p < 32 then some ⟨p, h⟩ else none
  | none => none

/-- The site of a port. -/
def portSite (p : Nat) : Nat :=
  if p < 16 then serp (p / 2 + 1) 7 else if p < 24 then serp 0 (p - 16) else serp 9 (p - 24)

/-- The launch of a region. -/
def State.launchOf (s : State) (region : Nat) : Option Launch :=
  match s.region? region with
  | some r => s.launches.find? fun l => l.id == r.launch
  | none => none

/-- Whether the launch of a tile holds wafer-link ports: GROUP is not 0 (R324). -/
def State.grouped (s : State) (t : Tile) : Bool := (s.launchOf t.region).any fun l => l.desc.group != 0

/-- The tile, if any, through which a launch holds a port (R324). -/
def State.holder (s : State) (p : Fin 32) : Option Nat :=
  (s.tiles.findIdx? fun t => s.portOf t == some p && s.grouped t)

def State.modPort (s : State) (p : Fin 32) (f : Port → Port) : State := { s with ports := s.ports.set p (f (s.ports.get p)) }

/-! ## Flits (R389) -/

/-- The low 224 bits of a flit. -/
def flitBody (ty seq ack : Nat) (w : MeshWord) (aseq modid : Nat) : Nat :=
  w.data.toNat + ack % 2 ^ 16 * 2 ^ 128 + seq % 2 ^ 16 * 2 ^ 144 + ty % 256 * 2 ^ 160 + modid % 256 * 2 ^ 168 +
    aseq % 2 ^ 16 * 2 ^ 176 + boolNat w.header (2 ^ 206) + boolNat w.poison (2 ^ 207) + w.tag.toNat * 2 ^ 208

/-- A flit with its CRC over bits [223:0]. -/
def flitOf (body : Nat) : BitVec 256 := BitVec.ofNat 256 (body % 2 ^ 224 + crc32c (leBytes 28 body) * 2 ^ 224)

def flitField (f : BitVec 256) (lo n : Nat) : Nat := bitsOf f.toNat lo n
def flitCrcOk (f : BitVec 256) : Bool := flitField f 224 32 == crc32c (leBytes 28 (f.toNat % 2 ^ 224))
def flitType (f : BitVec 256) : Nat := flitField f 160 8
def flitSeq (f : BitVec 256) : Nat := flitField f 144 16
def flitAck (f : BitVec 256) : Nat := flitField f 128 16
def flitWord (f : BitVec 256) : MeshWord :=
  { data := f.truncate 128, tag := BitVec.ofNat 8 (flitField f 208 8), poison := flitField f 207 1 == 1,
    header := flitField f 206 1 == 1 }

def MeshWord.none : MeshWord := ⟨0, 0, false, false⟩

/-- A control flit: ack, nack or idle. -/
def ctlFlit (ty ack modid : Nat) : BitVec 256 := flitOf (flitBody ty 0 ack .none 0 modid)

/-! ## Sending (R390) -/

def Port.emit (p : Port) (f : BitVec 256) : Port := { p with outbox := f :: p.outbox }

/-- Puts one word on the link as the next flit of the window; a header word takes an atomic number (R266). -/
def Port.launchWord (p : Port) (modid : Nat) (w : MeshWord) : Port :=
  let aseq := if w.header then p.atomSeq else 0
  let f := flitOf (flitBody 1 p.sendSeq ((p.recvSeq + 2 ^ 16 - 1) % 2 ^ 16) w aseq modid)
  let q := { p with window := p.window ++ [(f, 0)], sendSeq := (p.sendSeq + 1) % 2 ^ 16,
                    atomSeq := if w.header then (p.atomSeq + 1) % 2 ^ 16 else p.atomSeq }
  q.emit f

/-- Fills the window from the words that wait: at most 64 unacknowledged flits. -/
def Port.fillWindow (p : Port) (modid : Nat) : (fuel : Nat) → Port
  | 0 => p
  | fuel + 1 =>
    match p.waiting with
    | [] => p
    | w :: ws => if 64 ≤ p.window.length then p else ({ p with waiting := ws }.launchWord modid w).fillWindow modid fuel

/-- A word driven onto LNK of a home tile, or a reply of the port (R324). -/
def State.sendLink (s : State) (p : Fin 32) (w : MeshWord) : State :=
  s.modPort p fun x => { x with waiting := x.waiting ++ [w] }.fillWindow s.mod_.modid 64

/-- An acknowledgement of every flit up to number a (R390). -/
def Port.acked (p : Port) (a modid : Nat) : Port :=
  if p.window.any fun x => flitSeq x.1 == a then
    { p with window := (p.window.dropWhile fun (x : BitVec 256 × Nat) => flitSeq x.1 != a).drop 1, fullFor := 0 }.fillWindow modid 64
  else p

/-! ## Faults of a port (R363, R390) -/

/-- Records a link fault on the region that holds the port (R360, R362, R390). -/
def State.portFault (s : State) (p : Fin 32) (code : Nat) : State :=
  match s.holder p with
  | none => s
  | some i =>
    match s.tile? i with
    | none => s
    | some t => s.deferFaultAt i code (word p.val) 7 (s.cluster t).scy (some ⟨3, p.val, 0, portSite p.val⟩)

/-- A flit resent eight times, or a window full for 4,096 cycles: 0x0B02, and the words concerned are lost (R390).
DEDUCED, log entry 58. -/
def State.exhaustPort (s : State) (p : Fin 32) : State :=
  (s.portFault p 0x0B02).modPort p fun x => { x with window := [], fullFor := 0 }.fillWindow s.mod_.modid 64

/-- Resends the window from a flit on (R390): one that has been resent eight times already is given up. -/
def State.resendFrom (s : State) (p : Fin 32) (seq : Nat) : State :=
  let x := s.ports.get p
  if !(x.window.any fun f => flitSeq f.1 == seq) then s
  else
    let keep := x.window.takeWhile fun f => flitSeq f.1 != seq
    let again := x.window.dropWhile fun f => flitSeq f.1 != seq
    if again.any fun f => 8 ≤ f.2 then s.exhaustPort p
    else
      s.modPort p fun x =>
        again.foldl (fun y f => y.emit f.1)
          { x with window := keep ++ again.map fun f => (f.1, f.2 + 1), resent := min (x.resent + again.length) 0xFFFF }

/-! ## Remote atomics at a port (R254, R266) -/

/-- The operation and address of a control word (R320). -/
def ratomOf (c : Nat) : AtomOp × Nat := ((atomOfCode (bitsOf c 21 3)).getD .add, c % 2 ^ 21)

/-- Applies a remote operation at tile i: the write and the reply word. A poisoned target poisons the reply and what is
computed from it, which SWAP is not; a poisoned operand poisons the word and the reply (R191, R254, R320). DEDUCED, log
entry 54. -/
def Tile.serveWord (t : Tile) (w : MeshWord) : LineWrite × MeshWord :=
  let (op, a) := ratomOf (w.data.toNat % 2 ^ 64)
  let operand : Word := word (w.data.toNat / 2 ^ 64)
  let old : Word := word (t.sp.read a 8)
  let bad := t.sp.poisoned a 8
  let reply : MeshWord := ⟨old.zeroExtend 128, w.tag, bad || w.poison, false⟩
  let none_ : LineWrite := ⟨a, [], []⟩
  if op == .add && operand == 0 && !w.poison then (none_, reply)
  else (LineWrite.plain a (leBytes 8 (atomValue op old operand 0).toNat) (w.poison || (bad && op != .swap)), reply)

/-- Enters an applied operation in the filter of port p and sends its reply (R266). -/
def State.portReply (s : State) (p : Fin 32) (modid aseq : Nat) (reply : MeshWord) : State :=
  (s.modPort p fun x => { x with filter := (⟨modid, aseq, reply⟩ :: x.filter).take 256 }).sendLink p reply

/-- Whether a request already waits for its service. -/
def Tile.awaits (t : Tile) (p : Fin 32) (modid aseq : Nat) : Bool :=
  t.accs.any fun x => match x.op with
    | .portServe q m n _ => q == p && m == modid && n == aseq
    | _ => false

/-- A header word at port p: one applied before is answered from the filter; another is scheduled for service at the home
tile in the next reference cycle (R254, R266). DEDUCED, log entry 55. -/
def State.portAtomic (s : State) (p : Fin 32) (modid aseq : Nat) (w : MeshWord) : State :=
  match (s.ports.get p).filter.find? fun a => a.modid == modid && a.seq == aseq with
  | some a => s.sendLink p a.result
  | none =>
    match s.holder p with
    | none => s
    | some i =>
      match s.tile? i with
      | none => s
      | some t =>
        if t.awaits p modid aseq then s
        else
          let scy := (s.cluster t).scy
          s.setTile i { t with accs := t.accs ++ [⟨⟨.ref, scy + 1⟩, 0, 7, scy + 1, 0, .portServe p modid aseq w⟩] }

/-! ## Receiving (R265, R390) -/

/-- A word in sequence: a header word is applied, a data word enters the buffer unless it is full (R265, R266). -/
def State.portWord (s : State) (p : Fin 32) (f : BitVec 256) : State :=
  let w := flitWord f
  if w.header then s.portAtomic p (flitField f 168 8) (flitField f 176 16) w
  else s.modPort p fun x =>
    if x.buffer.length < 256 then { x with buffer := x.buffer ++ [w], fresh := x.fresh + 1 }
    else { x with lost := if x.lost.contains w.tag then x.lost else x.lost ++ [w.tag] }

/-- A flit from the link. -/
def State.receiveFlit (s : State) (p : Fin 32) (f : BitVec 256) : State :=
  let x := s.ports.get p
  let me := s.mod_.modid
  let ty := flitType f
  if !flitCrcOk f then
    s.modPort p fun x => { x with crce := min (x.crce + 1) 0xFFFF }.emit (ctlFlit 3 x.recvSeq me)
  else if ty = 1 then
    if flitSeq f = x.recvSeq then
      let s1 := s.modPort p fun x => { x with recvSeq := (x.recvSeq + 1) % 2 ^ 16 }
      (s1.portWord p f).modPort p fun x => x.emit (ctlFlit 2 (flitSeq f) me)
    else if (x.recvSeq + 2 ^ 16 - flitSeq f) % 2 ^ 16 ≤ 64 then
      -- a flit that was received before: acknowledged again, and a request is answered from the filter
      let s1 := s.modPort p fun y => y.emit (ctlFlit 2 ((x.recvSeq + 2 ^ 16 - 1) % 2 ^ 16) me)
      if (flitWord f).header then s1.portAtomic p (flitField f 168 8) (flitField f 176 16) (flitWord f) else s1
    else s.modPort p fun x => x.emit (ctlFlit 3 x.recvSeq me)
  else if ty = 2 then s.modPort p fun x => x.acked (flitAck f) me
  else if ty = 3 then s.resendFrom p (flitAck f)
  else if ty = 4 then s
  else s.modPort p fun x => { x with crce := min (x.crce + 1) 0xFFFF }

/-! ## Events -/

/-- The class of a measured delay (R391). -/
def linkClass (delay : Nat) : Nat := if delay ≤ 520 then 0 else if delay ≤ 600 then 1 else if delay ≤ 1260 then 2 else 3

/-- LINK_UP (R391, R392): the port measures its delay, and the counters are cleared. -/
def execLinkUp (p : Fin 32) (peer : Byte) (delay : Nat) (s : State) : Host.Outcome State Fault Refusal :=
  .next (s.modPort p fun x =>
    { x with up := true, peer := peer.toNat, owd := delay, cls := linkClass delay, resent := 0, crce := 0 })

/-- LINK_DOWN (R392): the fall of UP sets MODCTL.EVT [18]. -/
def execLinkDown (p : Fin 32) (s : State) : Host.Outcome State Fault Refusal :=
  .next (if (s.ports.get p).up then (s.modPort p fun x => { x with up := false }).raiseEvt 2 else s)

/-- LINK_FLIT_RECEIVE (R265, R266, R390). -/
def execLinkFlitReceive (p : Fin 32) (f : BitVec 256) (s : State) : Host.Outcome State Fault Refusal :=
  .next (s.receiveFlit p f)

/-- LINK_RESEND (R390): a nack that names a flit of the window. -/
def execLinkResend (p : Fin 32) (seq : BitVec 16) (s : State) : Host.Outcome State Fault Refusal :=
  .next (s.resendFrom p seq.toNat)

/-- LINK_RETRY_EXHAUSTED (R390): raised when a flit has been resent eight times or the window was full for 4,096
reference cycles; otherwise nothing happens. -/
def execLinkRetryExhausted (p : Fin 32) (s : State) : Host.Outcome State Fault Refusal :=
  let x := s.ports.get p
  .next (if 4096 ≤ x.fullFor || x.window.any (fun f => 8 ≤ f.2) then s.exhaustPort p else s)

/-- LINK_LOCK_LOSS (R390): block lock lost for 1 µs records 0x0B01, and the words concerned are lost. -/
def execLinkLockLoss (p : Fin 32) (s : State) : Host.Outcome State Fault Refusal :=
  .next ((s.portFault p 0x0B01).modPort p fun x => { x with window := [] }.fillWindow s.mod_.modid 64)

/-- A reference cycle of a port: how long its window has been full (R390). -/
def Port.tick (p : Port) : Port := { p with fresh := 0, fullFor := if 64 ≤ p.window.length then p.fullFor + 1 else 0 }

end Sys2Proof.Machine
end

