-- ==== Sys2Proof/Machine/Mesh.lean ====
section
/-! DEFINITION. The L class and the mesh (R308 to R324, R344, R346): route entries, sends and receives, the switch of a
tile in one reference cycle, and seam buffers. -/

namespace Sys2Proof.Machine

/-! ## L-class instructions (R315 to R322) -/

/-- Segment k of a route entry (R310). -/
def segment (e : Word) (k : Nat) : Nat := bitsOf e.toNat (16 * k) 16
def segValid (g : Nat) : Bool := bitOf g 15
def segIn (g : Nat) : Nat := bitsOf g 12 3
def segOut (g : Nat) : Nat := bitsOf g 6 6

/-- A valid segment that breaks R310: a reserved bit, a reserved IN, or no OUT bit. -/
def segBad (g : Nat) : Bool := segValid g && (g % 64 != 0 || 5 ≤ segIn g || segOut g == 0)

def execLnop (_g : Guard) (s : State) : Host.Outcome State Fault Refusal := issueNop (some .tile) s

/-- ROUTE (R316): ACT(e) := c from the reference cycle after issue. -/
def execRoute (g : Guard) (e : Fin 16) (c : BitVec 14) (s : State) : Host.Outcome State Fault Refusal :=
  issue (useT (.route g e c) g [] []) s fun _ s =>
    .ok (s.modCore fun x => x.land ⟨.ref, s.env.scy + 1⟩ (.act e c.toNat))

/-- RTSET (R317). -/
def execRtset (g : Guard) (e : Fin 16) (a : SOp) (s : State) : Host.Outcome State Fault Refusal :=
  issue (useT (.rtset g e a) g [(a, true)] []) s fun vs s =>
    let v := (srcAt vs 0).val
    if (List.range 4).any fun k => segBad (segment v k) then .error s.badOperand
    else .ok (s.landK 1 (.route e v))

/-- SEND (R318): the generator is latched and advanced, and the line is read at the bank cycle. -/
def execSend (g : Guard) (a : Fin 16) (k : Fin 4) (s : State) : Host.Outcome State Fault Refusal :=
  issue (useT (.send g a k) g [] []) s fun _ s =>
    match s.focusTile? with
    | none => .ok s
    | some t =>
      let x := t.gens.get a
      match addrCheck s.slot x.addr 64 64 with
      | some f => .error f
      | none =>
        .ok ((s.landPosition a x.step).pushAccess s.env.bankDue (.send x.addr.toNat (k.val + 1) t.stag))

/-- RECV (R319); with LNK on a tile that is no home tile it takes 0x0204. -/
def execRecv (g : Guard) (a : Fin 16) (k : Fin 4) (chk lnk : Bool) (s : State) : Host.Outcome State Fault Refusal :=
  issue (useT (.recv g a k chk lnk) g [] []) s fun _ s =>
    match s.focusTile? with
    | none => .ok s
    | some t =>
      let x := t.gens.get a
      match addrCheck s.slot x.addr 64 64 with
      | some f => .error f
      | none =>
        if lnk && (s.portOf t).isNone then .error (s.trapAt 0x0204 4)
        else .ok ((s.landPosition a x.step).pushAccess s.env.bankDue (.recv x.addr.toNat (k.val + 1) chk lnk))

/-- RATOM (R320): the control word is control, the operand is data. -/
def execRatom (g : Guard) (c o : SOp) (s : State) : Host.Outcome State Fault Refusal :=
  issue (useT (.ratom g c o) g [(c, true), (o, false)] []) s fun vs s =>
    match s.focusTile? with
    | none => .ok s
    | some t =>
      let w := (srcAt vs 0).val
      if w.toNat / 2 ^ 24 ≠ 0 ∨ bitsOf w.toNat 21 3 = 7 then .error s.badOperand
      else
        .ok (s.pushAccess s.env.bankDue
          (.header (BitVec.ofNat 128 (w.toNat + (srcAt vs 1).val.toNat * 2 ^ 64)) t.stag (srcAt vs 1).poison))

/-- RLD (R320). -/
def execRld (g : Guard) (c : SOp) (s : State) : Host.Outcome State Fault Refusal :=
  issue (useT (.rld g c) g [(c, true)] []) s fun vs s =>
    match s.focusTile? with
    | none => .ok s
    | some t =>
      let w := (srcAt vs 0).val
      if w.toNat / 2 ^ 21 ≠ 0 then .error s.badOperand
      else .ok (s.pushAccess s.env.bankDue (.header (w.zeroExtend 128) t.stag false))

/-- TAGSET (R321): select 1 STAG, 2 ETAG, 3 both. -/
def execTagset (g : Guard) (tag : BitVec 8) (sel : Fin 4) (s : State) : Host.Outcome State Fault Refusal :=
  issue (useT (.tagset g tag sel) g [] []) s fun _ s =>
    .ok (s.landK 1 (.tags (if sel.val % 2 = 1 then some tag else none) (if 2 ≤ sel.val then some tag else none)))

/-! ## Neighbours (R309, R22) -/

/-- Where a word driven onto an output goes: a neighbour in the cluster, a neighbour across a seam with the seam's
latency, edge and gateway on the receiving side; none for a fenced or absent lane. -/
inductive Hop where
  | near (tile : Nat) (lane : Lane)
  | far (tile : Nat) (lane : Lane) (lat edge gate : Nat)
  deriving DecidableEq, Repr

/-- The tile of a region at a cluster offset and logical place. -/
def State.tileAt (s : State) (region ox oy tx ty : Nat) : Option Nat :=
  s.tiles.findIdx? fun t =>
    t.region == region && t.tx == tx && t.ty == ty && (s.cluster t).ox == ox && (s.cluster t).oy == oy

/-- The band entry of a gateway (R323). -/
def State.band (s : State) (site e g : Nat) : Band := s.bands.toList.getD (16 * site + 4 * e + g) ⟨0, 0, 2, 0⟩

/-- The opposite edge, and the input lane on that side. -/
def Lane.opposite : Lane → Lane
  | .n => .s
  | .s => .n
  | .e => .w
  | .w => .e
  | .snd => .snd

def Lane.code : Lane → Nat
  | .n => 0
  | .e => 1
  | .s => 2
  | .w => 3
  | .snd => 4

/-- The offsets of an output: along x and along y. -/
def Lane.dir : Lane → Int × Int
  | .n => (0, -1)
  | .e => (1, 0)
  | .s => (0, 1)
  | .w => (-1, 0)
  | .snd => (0, 0)

/-- The neighbour of tile t at an output lane. -/
def State.hop (s : State) (t : Tile) (d : Lane) : Option Hop :=
  match s.region? t.region with
  | none => none
  | some r =>
    let c := s.cluster t
    let rows := s.rowsOf t.site
    let atEdge := match d with
      | .n => t.ty == 0
      | .e => t.tx == 15
      | .s => t.ty + 1 == rows
      | .w => t.tx == 0
      | .snd => false
    let x := (t.tx : Int) + d.dir.1
    let y := (t.ty : Int) + d.dir.2
    if !atEdge then
      if x < r.tw ∧ y < r.th then (s.tileAt t.region c.ox c.oy x.toNat y.toNat).map fun i => .near i d.opposite
      else none
    else
      let ox := (c.ox : Int) + d.dir.1
      let oy := (c.oy : Int) + d.dir.2
      if ox < 0 ∨ oy < 0 ∨ (r.cw : Int) ≤ ox ∨ (r.ch : Int) ≤ oy then none
      else
        let g := (if d = .e ∨ d = .w then t.ty else t.tx) / 4
        let b := s.band t.site d.code g
        let farSite := serp (siteX t.site + d.dir.1).toNat (siteY t.site + d.dir.2).toNat
        let tx' := if d = .e then 0 else if d = .w then 15 else t.tx
        let ty' := if d = .s then 0 else if d = .n then s.rowsOf farSite - 1 else t.ty
        if 2 ≤ b.band then none
        else
          (s.tileAt t.region ox.toNat oy.toNat tx' ty').map fun i =>
            .far i d.opposite (if b.band = 0 then 6 else b.lat) d.opposite.code g

/-! ## Crossing a seam (R344) -/

/-- The schedule cycle of the receiver at which a word is released, and whether it is late: the cycle of its stamp, that
of its arrival, and the last to which the buffer holds it, which is seven cycles later. -/
def seamRelease (due arrive cap : Nat) : Nat × Bool :=
  if due ≤ arrive then (arrive, true) else if cap < due then (cap, true) else (due, false)

/-- A word in a seam buffer with its cycles of arrival and of longest hold; not before the present cycle. -/
def Arrival.retime (a : Arrival) (x : Seam) (now : Nat) : Arrival :=
  let (at_, late) := seamRelease x.due x.arrive x.cap
  { a with at_ := max now at_, seam := some { x with late := late } }

/-- The clock of the receiver loses a reference cycle: a word comes, and the buffer holds it, to one cycle less. -/
def Arrival.lost (now : Nat) (a : Arrival) : Arrival :=
  match a.seam with
  | none => a
  | some x => a.retime { x with arrive := x.arrive - 1, cap := x.cap - 1 } now

/-- The clock of the receiver gains one. -/
def Arrival.gained (now : Nat) (a : Arrival) : Arrival :=
  match a.seam with
  | none => a
  | some x => a.retime { x with arrive := if now < x.arrive then x.arrive + 1 else x.arrive, cap := x.cap + 1 } now

/-- Places a word that left tile t through an output. -/
def State.deliver (s : State) (t : Tile) (h : Hop) (w : MeshWord) : State :=
  let now := (s.cluster t).scy
  match h with
  | .near i lane => s.modTile i fun u => { u with arrivals := u.arrivals ++ [⟨lane, now + 1, w, none⟩] }
  | .far i lane lat edge gate =>
    match s.tile? i with
    | none => s
    | some u =>
      let here := (s.cluster u).scy + (lat - 4)
      let (at_, late) := seamRelease (now + lat) here (here + 7)
      s.modTile i fun u =>
        { u with arrivals := u.arrivals ++ [⟨lane, at_, w, some ⟨u.site, edge, gate, late, now + lat, here, here + 7⟩⟩] }

/-- Records 0x0601 on every tile of the two clusters of a seam (R346). -/
def State.seamFault (s : State) (region : Nat) (site edge gate : Nat) : State :=
  let d : Int × Int := match edge with
    | 0 => (0, -1)
    | 1 => (1, 0)
    | 2 => (0, 1)
    | _ => (-1, 0)
  let other := serp (siteX site + d.1).toNat (siteY site + d.2).toNat
  let faddr := word (site * 256 + edge * 16 + gate)
  (List.range s.tiles.length).foldl (fun s i =>
    match s.tile? i with
    | none => s
    | some t =>
      if t.region = region ∧ (t.site = site ∨ t.site = other) then
        s.deferFaultAt i 0x0601 faddr 7 (s.cluster t).scy (some ⟨1, gate, edge, site⟩)
      else s) s

def State.modLamp (s : State) (site : Nat) (f : Lamp → Lamp) : State :=
  { s with lamps := s.lamps.set (Fin.ofNat 80 site) (f (s.lamps.get (Fin.ofNat 80 site))) }

/-- SEAM_BUFFER_RELEASE (R344): the seam buffers before tile i release the words of this schedule cycle into its
switch; a late one is poisoned, sets OVER for the site and records 0x0601. -/
def State.releaseSeam (s : State) (i : Nat) : State :=
  match s.tile? i with
  | none => s
  | some t =>
    let now := (s.cluster t).scy
    let due (a : Arrival) : Bool := a.at_ == now && a.seam.isSome
    let lates := (t.arrivals.filter due).filterMap fun a => a.seam.filter (·.late)
    let s1 := s.modTile i fun t =>
      { t with arrivals := t.arrivals.map fun a =>
          if due a then
            { a with word := { a.word with poison := a.word.poison || (a.seam.map (·.late)).getD false }, seam := none }
          else a }
    lates.foldl (fun s x =>
      (s.modLamp x.site fun l => { l with over_ := true }).seamFault t.region x.site x.edge x.gate) s1

def execSeamBufferRelease (t : Nat) (s : State) : Host.Outcome State Fault Refusal := .next (s.releaseSeam t)

/-! ## The switch in one reference cycle (R311, R312) -/

/-- ROUTE_ACT_EXPIRY (R310): the activity counters of tile i go down by one; one that reaches zero is inactive. -/
def execRouteActExpiry (t : Nat) (s : State) : Host.Outcome State Fault Refusal :=
  .next (s.modTile t fun x => { x with act := x.act.map fun n => n - 1 })

/-- The segments in force: input lane code and output mask. -/
def Tile.segments (t : Tile) : List (Nat × Nat) :=
  (List.range 16).flatMap fun e =>
    if t.act.toList.getD e 0 = 0 then []
    else (List.range 4).filterMap fun k =>
      let g := segment (t.routes.toList.getD e 0) k
      if segValid g then some (segIn g, segOut g) else none

/-- FADDR of a word at an input that no segment names. -/
def strayCode (lane : Nat) : Nat := if lane = 4 then 5 else 6 + lane

/-- A mesh fault at tile i: 0x0204 with a lane code, CAUSE.SLOT 7 (R311). -/
def State.laneFault (s : State) (i code scy : Nat) : State := s.faultTile i 0x0204 (word code) 7 scy

/-- Drives one output of tile i with the words that its segments bring to it. -/
def State.driveOut (s : State) (i : Nat) (t : Tile) (scy : Nat) (code : Nat) (ws : List MeshWord) : State :=
  match ws with
  | [] => s
  | [w] =>
    if code = 4 then
      match s.portOf t with
      | some p => if s.grouped t then s.sendLink p w else s.laneFault i 4 scy
      | none => s.laneFault i 4 scy
    else
      let d : Lane := match code with
        | 0 => .n
        | 1 => .e
        | 2 => .s
        | _ => .w
      match s.hop t d with
      | some h => s.deliver t h w
      | none => s.laneFault i code scy
  | _ => s.laneFault i code scy

/-- The OUT bit of a lane code: N, E, S, W, LNK, DEP. -/
def outBit (code : Nat) : Nat :=
  match code with
  | 4 => 5
  | 5 => 4
  | n => n

/-- A word at DEP: a header is scheduled for service in the next reference cycle, a data word enters the queue. -/
def State.deposit (s : State) (i : Nat) (scy : Nat) (lane : Lane) (w : MeshWord) : State :=
  match s.tile? i with
  | none => s
  | some t =>
    if w.header then
      s.setTile i { t with accs := t.accs ++ [⟨⟨.ref, scy + 1⟩, 0, 7, scy + 1, 0, .serve lane w⟩] }
    else if 8 ≤ t.rq.length then s.laneFault i 10 scy
    else s.setTile i { t with rq := t.rq ++ [w] }

def laneOf : Nat → Lane
  | 0 => .n
  | 1 => .e
  | 2 => .s
  | 3 => .w
  | _ => .snd

/-- MESH_WORD_ARRIVAL (R15, R311, R312): the switch of tile i in its present schedule cycle. Two words on one input lane
collide. DEDUCED, log entry 95. -/
def State.switchTile (s : State) (i : Nat) : State :=
  match s.tile? i with
  | none => s
  | some t =>
    let scy := (s.cluster t).scy
    let here := t.arrivals.filter fun a => a.at_ == scy && a.seam.isNone
    let s1 := s.setTile i { t with arrivals := t.arrivals.filter fun a => !(a.at_ == scy && a.seam.isNone) }
    let wordsAt (l : Nat) : List MeshWord := (here.filter fun a => a.lane.code == l).map (·.word)
    let segs := t.segments
    let crowded (l : Nat) : Bool := 1 < (wordsAt l).length
    let present (l : Nat) : Option MeshWord := if crowded l then none else (wordsAt l).head?
    let s2 := (List.range 5).foldl (fun s l => if crowded l then s.laneFault i (strayCode l) scy else s) s1
    let s3 := (List.range 5).foldl (fun s l =>
      if (present l).isSome && !(segs.any fun g => g.1 == l) then s.laneFault i (strayCode l) scy else s) s2
    let driving (code : Nat) : List (Nat × MeshWord) :=
      (List.range 5).flatMap fun l =>
        match present l with
        | none => []
        | some w => (segs.filter fun g => g.1 == l && bitOf g.2 (outBit code)).map fun _ => (l, w)
    let s4 := (List.range 5).foldl (fun s code => s.driveOut i t scy code ((driving code).map (·.2))) s3
    (driving 5).foldl (fun s x => s.deposit i scy (laneOf x.1) x.2) s4

def execMeshWordArrival (t : Nat) (s : State) : Host.Outcome State Fault Refusal := .next (s.switchTile t)

end Sys2Proof.Machine
end

