-- ==== Sys2Proof/Machine/Access.lean ====
section
/-! DEFINITION. The access port of a scratchpad bank in one reference cycle (R184 to R191, R216 to R218): bank collisions,
and what each access does. -/

namespace Sys2Proof.Machine

/-! ## Refusal (R186) -/

/-- A precise fault in an access of tile i: the instruction lands nothing from here on. DEDUCED, log entry 48. -/
def State.accessFault (s : State) (i code : Nat) (faddr : Word) (x : Access) (scy : Nat) : State :=
  (s.faultTile i code faddr x.slot scy).modTile i fun t => t.cancelSeq x.seq

/-- A write through the access port: the merge reads, and the words visible in the next reference cycle. -/
def State.portWrite (s : State) (i : Nat) (x : Access) (scy : Nat) (ws : List LineWrite) : State :=
  (s.mergeReads i ws x.slot x.iss).modTile i fun t =>
    { t with wbuf := t.wbuf ++ ws.flatMap (lineWords ⟨.ref, scy + 1⟩ x.seq x.slot false) }

/-! ## The operations -/

/-- Lands an effect of an access on tile i. -/
def Tile.landAt (t : Tile) (due : Due) (seq : Nat) (eff : Effect) : Tile :=
  { t with core := { t.core with lands := t.core.lands ++ [⟨due, seq, eff⟩] } }

/-- Lands a loaded value in d and l, four control cycles after issue, with taint 1 (R93, R132, R134). -/
def Tile.landLoad (t : Tile) (x : Access) (d : SOp) (v : Word) (poison : Bool) : Tile :=
  let r : SReg := ⟨v, true, poison⟩
  (t.landAt ⟨.ctl, x.ictl + 4⟩ x.seq (.reg d r)).landAt ⟨.ctl, x.ictl + 4⟩ x.seq (.reg .l r)

/-- Reads n bytes with the poison of each. -/
def State.readLine (s : State) (i a n slot scy : Nat) : State × Line :=
  match s.tile? i with
  | none => (s, .none)
  | some t =>
    let pz := (List.range n).map fun j => t.sp.bytePoison (a + j)
    let (s1, bs, _) := s.spRead i a n slot scy
    (s1, ⟨bs, pz⟩)

/-- The address of the word that holds the first poisoned byte of several runs. -/
def firstPoison : List (Nat × Line) → Option Nat
  | [] => none
  | (a, l) :: rest =>
    match l.pz.findIdx? id with
    | some j => some ((a + j) / 8 * 8)
    | none => firstPoison rest

/-- Vector cycle 1: the lines are read, and the result is written in vector cycle L (R194, R197). -/
def State.doVread (s : State) (i : Nat) (x : Access) (scy : Nat) (v : VCtx) : State :=
  let s1 := s.checkWords i (AccOp.readWords (.vread v)) x.slot x.iss
  let ls := v.reads.map fun r => (r.1, (s.readLine i r.1 r.2 x.slot x.iss).2)
  match (if vMaskResult v.op then firstPoison ls else none) with
  | some a => s1.accessFault i 0x0306 (word a) x scy
  | none =>
    let push (op : AccOp) (n : Nat) : State := s1.modTile i fun t =>
      { t with accs := t.accs ++ [{ x with due := ⟨.vec, x.due.at_ + n⟩, op := op }] }
    let w := vwidth (vTypeOf v.op)
    let win (data idx : Line) : State :=
      push (.gwindow v ((List.range (64 / w)).map fun k => idx.elem w k) data.bytes 0 [] (idx.pz ++ data.pz)) 1
    match v.op, ls.map (·.2) with
    | .vgath .., [idx] => win .none idx
    | .vscat .., [data, idx] => win data idx
    | _, lines =>
      let r := v.result lines
      push (.vwrite r.writes r.effs) (vLatency v.op - 1)

/-! ## Gather and scatter (R216 to R218) -/

/-- The table base: addr(a) for VGATH, addr(d) for VSCAT. -/
def VCtx.table (v : VCtx) : Nat :=
  match v.op with
  | .vscat .. => v.addrD.toNat
  | _ => v.addrA.toNat

/-- The element addresses of the enabled lanes, lanes ascending. -/
def VCtx.elems (v : VCtx) (idx : List Nat) : List (Nat × Nat) :=
  let w := vwidth (vTypeOf v.op)
  (lanesOn v.mask w (64 / w)).map fun k => (k, v.table + idx.getD k 0 * w)

/-- The checks of the window's first cycle, lanes ascending: the fault and FADDR. DEDUCED, log entry 20. -/
def VCtx.windowFault (v : VCtx) (idx : List Nat) (pz : List Bool) : Option (Nat × Nat) :=
  let w := vwidth (vTypeOf v.op)
  (v.elems idx).findSome? fun e =>
    if ((pz.drop (e.1 * w)).take w).any id then some (0x0306, (v.addrB.toNat + e.1 * w) / 8 * 8)
    else if Config.spSize < e.2 + w then some (0x0301, e.2)
    else none

/-- The distinct lines that an instruction needs from a bank, ascending, as addresses. -/
def VCtx.bankLines (v : VCtx) (idx : List Nat) (bank : Nat) : List Nat :=
  (v.elems idx).foldl (fun acc e => if bankOf e.2 = bank then insertAsc (e.2 / 64 * 64) acc else acc) []

/-- The lines served in cycle c of the window. -/
def VCtx.served (v : VCtx) (idx : List Nat) (c : Nat) : List Nat :=
  (List.range 16).filterMap fun b => (v.bankLines idx b)[c]?

/-- A fifth line of some bank, the lowest bank first. DEDUCED, log entry 107. -/
def VCtx.fifth (v : VCtx) (idx : List Nat) : Option Nat := (List.range 16).findSome? fun b => (v.bankLines idx b)[4]?

/-- The write of one line by VSCAT: the higher lane prevails (R218). -/
def VCtx.scatterLine (v : VCtx) (idx : List Nat) (data : List Byte) (pz : List Bool) (line : Nat) : LineWrite :=
  let w := vwidth (vTypeOf v.op)
  let hits := ((v.elems idx).filter fun e => e.2 / 64 * 64 == line).reverse
  let cell (j : Nat) : Option Byte × Bool :=
    match hits.find? fun e => e.2 ≤ line + j && line + j < e.2 + w with
    | some (k, a) =>
      (some (data.getD (k * w + (line + j - a)) 0), ((pz.drop 64).drop (k * w) |>.take w).any id)
    | none => (none, false)
  ⟨line, (List.range 64).map fun j => (cell j).1, (List.range 64).map fun j => (cell j).2⟩

/-- One reference cycle of a gather window of tile i; all banks are the instruction's own. That the lane checks come before
a fifth line is DEDUCED, log entry 107. -/
def State.doWindow (s : State) (i : Nat) (x : Access) (scy : Nat) (v : VCtx) (idx : List Nat) (data : List Byte)
    (c : Nat) (got : List (Nat × Byte × Bool)) (pz : List Bool) : State :=
  match (if c = 0 then v.windowFault idx pz else none) with
  | some (code, a) => s.accessFault i code (word a) x scy
  | none =>
    match (if c = 0 then v.fifth idx else none) with
    | some a => s.accessFault i 0x0203 (word a) x scy
    | none =>
      let lines := v.served idx c
      let w := vwidth (vTypeOf v.op)
      let next (got : List (Nat × Byte × Bool)) (s : State) : State :=
        let push (due : Due) (op : AccOp) : State := s.modTile i fun t =>
          { t with accs := t.accs ++ [{ x with due := due, op := op }] }
        if c < 3 then push ⟨.vec, x.due.at_ + 1⟩ (.gwindow v idx data (c + 1) got pz)
        else
          match v.op with
          | .vgath .. =>
            let lane (k : Nat) : Option (Nat × Bool) :=
              match (v.elems idx).find? fun e => e.1 == k with
              | none => none
              | some (_, a) =>
                let cells := (List.range w).map fun j => ((got.find? fun g => g.1 == a + j).map (·.2)).getD (0, false)
                some (leNat (cells.map (·.1)), cells.any (·.2))
            push ⟨.vec, x.due.at_ + 2⟩ (.vwrite [putLanes v.addrD.toNat w (64 / w) lane] [])
          | _ => s
      match v.op with
      | .vscat .. => next got (s.portWrite i x scy (lines.map (v.scatterLine idx data pz)))
      | _ =>
        let (s1, cells) := lines.foldl (fun (acc : State × List (Nat × Byte × Bool)) a =>
          let (s1, l) := acc.1.readLine i a 64 x.slot x.iss
          (s1, acc.2 ++ (List.range 64).map fun j => (a + j, l.bytes.getD j 0, l.pz.getD j false))) (s, [])
        next (got ++ cells.filter fun g => (v.elems idx).any fun e => e.2 ≤ g.1 && g.1 < e.2 + w) s1

/-! ## Copies, mesh and service -/

/-- Drops the commands of the same bundle that stand behind one that faulted. -/
def Tile.dropBehind (t : Tile) (iss : Nat) : Tile :=
  { t with accs := t.accs.filter fun a => match a.op with
      | .dlist .. => a.iss ≠ iss
      | .engine .. => a.iss ≠ iss
      | _ => true }

/-- A fault that a C slot finds at its bank cycle. DEDUCED, log entry 31. -/
def State.failCopy (s : State) (i : Nat) (x : Access) (f : Trap) : State :=
  (s.faultTile i f.code f.faddr x.slot x.iss).modTile i fun t => t.dropBehind x.iss

/-- The bank cycle of a C slot: the list is read, checks 3 to 9 run, and the command starts (R225, R226, R231). -/
def State.doCopy (s : State) (i : Nat) (x : Access) (cmd : Instr) (h hs : BitVec 256) (a b : SReg)
    (phase : Nat) : State :=
  let (s1, l) := s.readLine i (hDlist h) (16 * (hNdim h + 1)) x.slot x.iss
  match firstPoison [(hDlist h, l)] with
  | some w => s1.failCopy i x ⟨0x0306, word w, x.slot⟩
  | none =>
    match s1.tile? i with
    | none => s1
    | some t =>
      match checkCopy x.slot t (s.pagesOf t) cmd h hs a.val b.val l.bytes with
      | .error f => s1.failCopy i x f
      | .ok ds => s1.setTile i (t.begin cmd h hs a.val (if isStage cmd then b.val else a.val) ds x phase (s.wcy + s.timing.land))

/-- A SADV or CATOM behind a C slot acts once that slot has passed its checks or failed them (R231). -/
def State.doEngine (s : State) (i : Nat) (x : Access) (cmd : Instr) (vs : List Word) (addr phase : Nat) : State :=
  match s.tile? i with
  | none => s
  | some t =>
    let did : Except Trap Tile := match cmd with
      | .sadv _ w p => t.advance w p x.slot phase x.seq (s.wcy + s.timing.land)
      | _ => s.catomNow t x.slot x.iss phase x.seq ⟨0x0104, word addr, x.slot⟩ (vs.getD 0 0) (vs.getD 1 0) (vs.getD 2 0)
    match did with
    | .error f => s.failCopy i x f
    | .ok t1 => s.setTile i t1

/-- Puts a word on the SND lane of tile t. -/
def Tile.putSnd (t : Tile) (at_ : Nat) (w : MeshWord) : Tile := { t with arrivals := t.arrivals ++ [⟨.snd, at_, w, none⟩] }

/-- The k words of a line as mesh words (R318). -/
def sendWords (l : Line) (k : Nat) (tag : BitVec 8) : List MeshWord :=
  (List.range k).map fun j =>
    ⟨BitVec.ofNat 128 (leNat ((l.bytes.drop (16 * j)).take 16)), tag, ((l.pz.drop (16 * j)).take 16).any id, false⟩

/-- The words of a port buffer that had come before the present reference cycle (R265, R421). -/
def Port.present (p : Port) : List MeshWord := p.buffer.take (p.buffer.length - p.fresh)

/-- The queue that a RECV takes from (R319). -/
def State.recvFrom (s : State) (t : Tile) (lnk : Bool) : List MeshWord :=
  if lnk then
    match s.portOf t with
    | some p => (s.ports.get p).present
    | none => []
  else t.rq

/-- Whether a RECV finds its words (R319, R265). -/
def recvOk (t : Tile) (src : List MeshWord) (k : Nat) (chk : Bool) : Bool :=
  decide (k ≤ src.length) && !(chk && (src.take k).any fun w => w.tag != t.etag)

/-- Whether a RECV reads a stream of a port that has lost a word (R265). -/
def State.streamLost (s : State) (t : Tile) (lnk : Bool) : Bool :=
  lnk && (s.portOf t).any fun p => (s.ports.get p).lost.contains t.etag

/-- The read that finds a stream's loss takes the mark away. DEDUCED, log entry 96. -/
def State.spendLoss (s : State) (i : Nat) (op : AccOp) : State :=
  match s.tile? i, op with
  | some t, .recv _ _ _ true =>
    match s.portOf t with
    | some p => s.modPort p fun y => { y with lost := y.lost.filter (· != t.etag) }
    | none => s
  | _, _ => s

/-- The line write of taken words. -/
def recvWrite (a : Nat) (ws : List MeshWord) : LineWrite :=
  ⟨a, ws.flatMap fun w => (leBytes 16 w.data.toNat).map some, ws.flatMap fun w => List.replicate 16 w.poison⟩

/-- Takes the words of a RECV and writes them (R319). -/
def State.doRecv (s : State) (i : Nat) (x : Access) (scy a k : Nat) (lnk : Bool) : State :=
  match s.tile? i with
  | none => s
  | some t =>
    let ws := (s.recvFrom t lnk).take k
    let s1 :=
      if lnk then
        match s.portOf t with
        | some p => s.modPort p fun y => { y with buffer := y.buffer.drop k }
        | none => s
      else s.setTile i { t with rq := t.rq.drop k }
    s1.portWrite i x scy [recvWrite a ws]

/-- Serves a header word at its service cycle (R254, R320); `send` takes the reply. -/
def State.doServe (s : State) (i : Nat) (x : Access) (scy : Nat) (w : MeshWord) (send : MeshWord → State → State) : State :=
  let a := (ratomOf (w.data.toNat % 2 ^ 64)).2
  match s.tile? i with
  | none => s
  | some t =>
    let (lw, reply) := t.serveWord w
    let (s1, _, _) := s.spRead i a 8 x.slot scy
    send reply (s1.portWrite i x scy (if lw.bytes.isEmpty then [] else [lw]))

/-- The effect of an access that its banks have granted wholly. -/
def State.doAccess (s : State) (i : Nat) (x : Access) (scy : Nat) : State :=
  match x.op with
  | .load size signed a d =>
    let (s1, bs, bad) := s.spRead i a size x.slot x.iss
    let v : Word := if signed then BitVec.ofInt 64 (toSigned (8 * size) (leNat bs)) else word (leNat bs)
    s1.modTile i fun t => t.landLoad x d v bad
  | .store size a data poison => s.portWrite i x scy [LineWrite.plain a (leBytes size data.toNat) poison]
  | .atom op a b e d =>
    let (s1, bs, bad) := s.spRead i a 8 x.slot x.iss
    let old : Word := word (leNat bs)
    let s2 := s1.modTile i fun t => t.landLoad x d old bad
    if bad then s2
    else s2.portWrite i x scy
      [LineWrite.plain a (leBytes 8 (atomValue op old b.val e.val).toNat) (b.poison || e.poison)]
  | .hld n a =>
    let (s1, bs, bad) := s.spRead i a 32 x.slot x.iss
    s1.modTile i fun t => t.landAt ⟨.ctl, x.ictl + 4⟩ x.seq (.handle n (BitVec.ofNat 256 (leNat bs)) bad)
  | .hst a v poison => s.portWrite i x scy [LineWrite.plain a (leBytes 32 v.toNat) poison]
  | .scl n a =>
    let (s1, l) := s.readLine i a 256 x.slot x.iss
    let pz := (List.range 32).foldl (fun acc j => if l.pz.getD (8 * j) false then acc + 2 ^ j else acc) 0
    s1.modTile i fun t =>
      t.landAt ⟨.ctl, x.ictl + 4⟩ x.seq (.scale n (BitVec.ofNat 2048 (leNat l.bytes)) (BitVec.ofNat 32 pz))
  | .vread v => s.doVread i x scy v
  | .vwrite ws effs =>
    effs.foldl (fun s eff => s.modTile i fun t => t.landAt ⟨.ref, scy⟩ x.seq eff) (s.portWrite i x scy ws)
  | .gwindow v idx data c got pz => s.doWindow i x scy v idx data c got pz
  | .dlist cmd h hs a b phase => s.doCopy i x cmd h hs a b phase
  | .engine cmd vs addr phase => s.doEngine i x cmd vs addr phase
  | .send a k tag =>
    let (s1, l) := s.readLine i a 64 x.slot x.iss
    s1.modTile i fun t =>
      (sendWords l k tag).zipIdx.foldl (fun t w => t.putSnd (scy + 1 + w.2) w.1) t
  | .recv a k _ lnk => s.doRecv i x scy a k lnk
  | .header data tag poison => s.modTile i fun t => t.putSnd (scy + 1) ⟨data, tag, poison, true⟩
  -- the reply enters SND in the next reference cycle (R312)
  | .serve _ w => s.doServe i x scy w fun r s => s.modTile i fun t => t.putSnd (scy + 1) r
  | .portServe p m n w => s.doServe i x scy w fun r s => s.portReply p m n r

/-! ## One reference cycle -/

/-- A fault of the access's own that stands before its bank access (R312, R319). -/
def State.accessCheck (s : State) (i : Nat) (x : Access) : Option (Nat × Nat) :=
  match s.tile? i, x.op with
  | some t, .recv a k chk lnk =>
    if recvOk t (s.recvFrom t lnk) k chk && !s.streamLost t lnk then none else some (0x0201, a)
  | some _, .serve _ w | some _, .portServe _ _ _ w =>
    let a := (ratomOf (w.data.toNat % 2 ^ 64)).2
    if a % 8 ≠ 0 then some (0x0302, a) else none
  | _, _ => none

/-- The accesses made before a refused one stand: the lines of a write that were granted are written, those of a read
are read. -/
def State.partAccess (s : State) (i : Nat) (x : Access) (scy : Nat) (granted : List Nat) : State :=
  match x.op with
  | .vwrite ws _ => s.portWrite i x scy (ws.filter fun w => granted.any fun a => a / 64 == w.addr / 64)
  | op => s.checkWords i (op.readWords.filter fun w => granted.any fun a => a / 64 == w / 8) x.slot x.iss

/-- One access of tile i: its own check, its banks, its effect (R186, R216). That a window that meets other accesses is
refused at the lowest of their banks, and before its own checks, is DEDUCED, log entry 107. -/
def State.runAccess (s : State) (i : Nat) (x : Access) : State :=
  match s.tile? i with
  | none => s
  | some t =>
    let scy := (s.cluster t).scy
    match s.accessCheck i x with
    | some (code, a) => (s.spendLoss i x.op).accessFault i code (word a) x scy
    | none =>
      match x.op with
      | .gwindow v idx _ c _ _ =>
        match (List.range 16).find? fun b => t.claims.contains b with
        | some b =>
          let a := ((v.bankLines idx b)[c]?).getD (64 * b)
          (s.accessFault i 0x0203 (word a) x scy)
        | none => (s.setTile i { t with claims := List.range 16 }).doAccess i x scy
      | op =>
        let (granted, refused) := grant t.claims op.touches
        let s1 := s.setTile i { t with claims := t.claims ++ granted.map bankOf }
        match refused with
        | some a => (s1.partAccess i x scy granted).accessFault i 0x0203 (word a) x scy
        | none => s1.doAccess i x scy

/-- The order of the accesses of a reference cycle: by issue (R186). -/
def insertAccess (x : Access) : List Access → List Access
  | [] => [x]
  | y :: ys => if x.seq < y.seq then x :: y :: ys else y :: insertAccess x ys

def sortAccesses (xs : List Access) : List Access := xs.foldl (fun acc x => insertAccess x acc) []

/-- One access, if no earlier fault of the same cycle has dropped it. -/
def State.takeAccess (i : Nat) (s : State) (x : Access) : State :=
  match s.tile? i with
  | none => s
  | some t =>
    if t.accs.contains x then (s.setTile i { t with accs := t.accs.filter (· ≠ x) }).runAccess i x else s

/-- The port of tile i in the present reference cycle: writes whose visibility has come are seen, then the decided accesses
are made, but for service accesses (R186, R189). DEDUCED, log entry 53. -/
def State.runAccesses (s : State) (i : Nat) : State :=
  let s1 := s.commitWrites i
  match s1.tile? i with
  | none => s1
  | some t =>
    let e := s1.tileEnv t
    (sortAccesses (t.accs.filter fun a => e.reached a.due && !a.op.isServe)).foldl (State.takeAccess i)
      (s1.setTile i { t with claims := [] })

/-- A service access counts as issued in its reference cycle, after every instruction that has issued by then (R186). -/
def State.serveOne (i : Nat) (s : State) (x : Access) : State :=
  let n := ((s.tile? i).map (·.core.seq + 1)).getD 0
  (s.modTile i fun t => { t with core := { t.core with seq := n } }).runAccess i { x with seq := n }

/-- REMOTE_ACCESS_SERVICE (R254, R312): the headers that are due at tile i, in the input order N, E, S, W, SND, and those
that came through a port after them. DEDUCED, log entry 55. -/
def State.runServices (s : State) (i : Nat) : State :=
  match s.tile? i with
  | none => s
  | some t =>
    let e := s.tileEnv t
    let due (a : Access) : Bool := e.reached a.due && a.op.isServe
    let port (a : Access) : Bool := match a.op with
      | .portServe .. => true
      | _ => false
    let xs := t.accs.filter due
    (xs.filter (fun a => !port a) ++ xs.filter port).foldl (State.serveOne i)
      (s.setTile i { t with accs := t.accs.filter fun a => !due a })

def execRemoteAccessService (t : Nat) (s : State) : Host.Outcome State Fault Refusal := .next (s.runServices t)

/-- RESULT_LANDS (R99, R40): the results of an agent's core whose cycle has come. -/
def State.landResults (s : State) (a : Agent) : State :=
  match a with
  | .tile i =>
    match s.tile? i with
    | none => s
    | some t =>
      let e := s.tileEnv t
      let xs := landingOrder (t.core.lands.filter fun x => e.reached x.due)
      let t1 := { t with core := { t.core with lands := t.core.lands.filter fun x => !e.reached x.due } }
      let put (xs : List Landing) : Tile := xs.foldl (fun t x => t.apply x.eff) t1
      let fixed := xs.filter fun x => !x.eff.isPosition
      let t2 := put xs
      s.setTile i (if fixed.length = xs.length then t2 else { t2 with agPrev := some (e.scy, (put fixed).gens) })
  | .lantern n =>
    s.modLantern n fun l =>
      let e := l.env s.wcy
      let xs := landingOrder (l.core.lands.filter fun x => e.reached x.due)
      let c := { l.core with lands := l.core.lands.filter fun x => !e.reached x.due }
      { l with core := xs.foldl (fun c x => c.apply x.eff) c }

def execResultLands (a : Agent) (s : State) : Host.Outcome State Fault Refusal := .next (s.landResults a)

/-- MATRIX_STEP_LANDS (R163): what the M paths of tile t do in the present cycle. -/
def execMatrixStepLands (t : Nat) (s : State) : Host.Outcome State Fault Refusal := .next (s.runMatrix t)

end Sys2Proof.Machine
end

