-- ==== Sys2Proof/Machine/Fetch.lean ====
section
/-! DEFINITION. Fetching a bundle (R39, R42, R43), the length of a bundle, and the choice of the next bundle (R122,
R130). -/

namespace Sys2Proof.Machine

/-- The memory an agent fetches from: its code store, or the instruction region of Lantern SRAM (R42, R285). -/
def State.codeOf (s : State) : Agent → Mem
  | .tile i =>
    match s.tile? i with
    | some t => t.code
    | none => .empty
  | .lantern n => (s.lanterns.get n).sram

/-- The little-endian number in n bytes at an offset of a list. -/
def getLE (bs : List Byte) (o n : Nat) : Nat := leNat ((bs.drop o).take n)

/-- Whether the first bundle of an image begins with WAITW, and the word it names (R343). -/
def firstWaitw (code : List Byte) (entry : Nat) : Option Nat :=
  let w := getLE code entry 4
  if slotClass w = 6 ∧ slotOp w = 0x05 then some (w % 8) else none

/-- The slot word at a byte address. -/
def slotAt (m : Mem) (a : Nat) : Nat := m.read a 4

/-- The slots fetched for one bundle: words up to the stop bit or the limit, or the fault that ended the fetch and
its FADDR (R39, R42, R43, R285). -/
def fetchSlots (m : Mem) : (fuel pc : Nat) → Except (Nat × Nat) (List Nat)
  | 0, _ => .ok []
  | fuel + 1, pc =>
    if Config.codeSize ≤ pc + 3 then .error (0x0A01, pc)
    else if (m.mark (pc / 8)).err == .uncorrectable then .error (0x0A02, pc)
    else
      let w := slotAt m pc
      if slotStop w then .ok [w]
      else
        match fetchSlots m fuel (pc + 4) with
        | .ok ws => .ok (w :: ws)
        | .error e => .error e

/-- The most slots a core fetches for one bundle. -/
def maxSlots : CoreKind → Nat
  | .tile => 8
  | .lantern => 4

/-- The number of words that the fetch of one bundle reads, up to the stop bit, the limit or the word that cannot be read. -/
def fetchCount (m : Mem) : (fuel pc : Nat) → Nat
  | 0, _ => 0
  | fuel + 1, pc =>
    if pc % 4 ≠ 0 ∨ Config.codeSize ≤ pc + 3 ∨ (m.mark (pc / 8)).err == .uncorrectable then 0
    else if slotStop (slotAt m pc) then 1
    else 1 + fetchCount m fuel (pc + 4)

/-- The words with an error that the fetch of a bundle corrects, whatever the checks of the bundle then say (R43). That a word
that holds two of its slots counts once is DEDUCED, log entry 105. -/
def fetchCorrected (m : Mem) (kind : CoreKind) (pc : Nat) : List Nat :=
  m.correctables pc (4 * fetchCount m (maxSlots kind) pc)

/-- A fetched and checked bundle: its instructions, each with its word, or the fault, its FADDR and the slot (R39).
A target that is not 4-byte aligned cannot be fetched (R95). Where the bundle is the target of a taken transfer and a word of
it cannot be fetched, FADDR is the target (R124). DEDUCED, log entry 45. -/
def fetchBundle (m : Mem) (kind : CoreKind) (target : Bool) (pc : Nat) : Except (Nat × Nat × Nat) (List (Nat × Instr)) :=
  if pc % 4 ≠ 0 then .error (0x0A01, pc, 0)
  else
    match fetchSlots m (maxSlots kind) pc with
    | .error (c, a) => .error (c, if target then pc else a, (a - pc) / 4)
    | .ok ws =>
      match bundleBad kind ws with
      | some (c, i) => .error (c, pc + 4 * i, i)
      | none =>
        match decodeAll ws with
        | some is => .ok (ws.zip is)
        | none => .error (0x0104, pc, 0)

/-- The number of slots of the bundle at an address, by stop bits alone. -/
def bundleLen (m : Mem) : (fuel pc : Nat) → Nat
  | 0, _ => 0
  | fuel + 1, pc => if slotStop (slotAt m pc) then 1 else 1 + bundleLen m fuel (pc + 4)

/-- The address of the bundle that follows in code-store order. -/
def nextBundle (m : Mem) (kind : CoreKind) (pc : Nat) : Nat := pc + 4 * bundleLen m (maxSlots kind) pc

/-- The address of the n-th bundle that follows. -/
def nthBundle (m : Mem) (kind : CoreKind) : (n pc : Nat) → Nat
  | 0, pc => pc
  | n + 1, pc => nthBundle m kind n (nextBundle m kind pc)

/-! ## The next bundle (R130) -/

/-- Pops the levels that a taken BR, JAL or JR leaves. -/
def popLeft (cdepth target : Nat) : List LoopLevel → List LoopLevel
  | [] => []
  | l :: ls => if l.cdepth = cdepth ∧ ¬ (l.start ≤ target ∧ target ≤ l.last) then popLeft cdepth target ls else l :: ls

/-- The levels after a taken transfer. -/
def popXfer (t : Transfer) (cdepth : Nat) (ls : List LoopLevel) : List LoopLevel :=
  match t.kind with
  | .ret => ls.filter fun l => l.cdepth ≠ t.cdepth
  | .br | .jal | .jr => popLeft cdepth t.target ls
  | .call | .eret => ls

/-- The end of a bundle against the loop levels: the next address and the levels left; none goes on in sequence. -/
def loopNext (cdepth addr : Nat) : List LoopLevel → Option Nat × List LoopLevel
  | [] => (none, [])
  | l :: ls =>
    if l.cdepth = cdepth ∧ addr = l.last then
      if 1 < l.cnt then (some l.start, { l with cnt := l.cnt - 1 } :: ls) else loopNext cdepth addr ls
    else (none, l :: ls)

/-- The call depth against which the end of a bundle is tested: in the delay bundles of a transfer the one at its issue, so
that they are the bundles that would issue without it (R122, R130). -/
def Core.loopDepth (c : Core) : Nat :=
  match c.xfer with
  | some t => t.cdepth
  | none => c.cdepth

/-- The levels and the next address once a bundle at `addr` that takes `len` bytes has issued (R122, R130). -/
def Core.advance (c0 : Core) (addr len : Nat) : Core :=
  let c : Core := { c0 with target := false }
  let due : Bool := match c.xfer with
    | some t => decide (t.left ≤ 1)
    | none => false
  let c1 : Core :=
    match c.xfer with
    | some t =>
      if due then { c with pc := t.target, loops := popXfer t c.cdepth c.loops, xfer := none, target := true }
      else
        let r := loopNext c.loopDepth addr c.loops
        { c with pc := r.1.getD (addr + len), loops := r.2, xfer := some { t with left := t.left - 1 } }
    | none =>
      let r := loopNext c.cdepth addr c.loops
      { c with pc := r.1.getD (addr + len), loops := r.2 }
  match c.ctl with
  | none => c1
  | some (.loop l) => { c1 with loops := l :: c1.loops, ctl := none }
  | some (.xfer t) =>
    { c1 with ctl := none, xfer := some t,
              cdepth := match t.kind with
                | .call => c1.cdepth + 1
                | .ret => c1.cdepth - 1
                | _ => c1.cdepth }
  | some (.goto p) => { c1 with ctl := none, pc := p, xfer := none, target := false }

/-- A core after n more bundles in which nothing is taken, hardware loop-backs included (R122). -/
def Core.follow (m : Mem) (kind : CoreKind) : (n : Nat) → Core → Core
  | 0, c => c
  | n + 1, c =>
    Core.follow m kind n ({ c with ctl := none, xfer := none }.advance c.pc (4 * bundleLen m (maxSlots kind) c.pc))

end Sys2Proof.Machine
end

