-- ==== Sys2Proof/Machine/Scalar.lean ====
section
/-! DEFINITION. The integer computation, predicate and target instructions of the S class (R113 to R121, R126, R136). -/

namespace Sys2Proof.Machine

/-! ## Values -/

/-- A shift amount: bits [5:0] (R113). -/
def shAmt (b : Word) : Nat := b.toNat % 64

def sMin (a b : Word) : Word := if a.slt b then a else b
def sMax (a b : Word) : Word := if b.slt a then a else b
def uMin (a b : Word) : Word := if a.ult b then a else b
def uMax (a b : Word) : Word := if b.ult a then a else b

/-- Bits [127:64] of the signed product (R118). -/
def mulHigh (a b : Word) : Word := BitVec.ofInt 64 ((a.toInt * b.toInt) / (2 ^ 64 : Nat))

/-- Bits [127:64] of the unsigned product (R118). -/
def mulHighU (a b : Word) : Word := word (a.toNat * b.toNat / 2 ^ 64)

/-- DIV: rounds towards zero; the corners of R119. -/
def divS (a b : Word) : Word :=
  if b = 0 then BitVec.allOnes 64
  else if a.toInt = -(2 ^ 63 : Nat) ∧ b.toInt = -1 then a
  else BitVec.ofInt 64 (a.toInt.tdiv b.toInt)

/-- REM: the sign of the dividend; the corners of R119. -/
def remS (a b : Word) : Word :=
  if b = 0 then a
  else if a.toInt = -(2 ^ 63 : Nat) ∧ b.toInt = -1 then 0
  else BitVec.ofInt 64 (a.toInt - a.toInt.tdiv b.toInt * b.toInt)

def divU (a b : Word) : Word := if b = 0 then BitVec.allOnes 64 else word (a.toNat / b.toNat)
def remU (a b : Word) : Word := if b = 0 then a else word (a.toNat % b.toNat)

/-- The number of leading zero bits (R117). -/
def clz64 (a : Word) : Word := word (64 - bitLen a.toNat)

/-- The number of one bits (R117). -/
def popc64 (a : Word) : Word := word (popCount 64 a.toNat)

/-! ## Meanings -/

def execNop (_g : Guard) (s : State) : Host.Outcome State Fault Refusal := issueNop none s
def execAdd (g : Guard) (d a b : SOp) (s : State) : Host.Outcome State Fault Refusal :=
  aluR (.add g d a b) g d a b 1 2 (fun x y => x + y) s
def execSub (g : Guard) (d a b : SOp) (s : State) : Host.Outcome State Fault Refusal :=
  aluR (.sub g d a b) g d a b 1 2 (fun x y => x - y) s
def execAnd (g : Guard) (d a b : SOp) (s : State) : Host.Outcome State Fault Refusal :=
  aluR (.and g d a b) g d a b 1 2 (fun x y => x &&& y) s
def execOr (g : Guard) (d a b : SOp) (s : State) : Host.Outcome State Fault Refusal :=
  aluR (.or g d a b) g d a b 1 2 (fun x y => x ||| y) s
def execXor (g : Guard) (d a b : SOp) (s : State) : Host.Outcome State Fault Refusal :=
  aluR (.xor g d a b) g d a b 1 2 (fun x y => x ^^^ y) s
def execShl (g : Guard) (d a b : SOp) (s : State) : Host.Outcome State Fault Refusal :=
  aluR (.shl g d a b) g d a b 1 2 (fun x y => x <<< shAmt y) s
def execShr (g : Guard) (d a b : SOp) (s : State) : Host.Outcome State Fault Refusal :=
  aluR (.shr g d a b) g d a b 1 2 (fun x y => x >>> shAmt y) s
def execSra (g : Guard) (d a b : SOp) (s : State) : Host.Outcome State Fault Refusal :=
  aluR (.sra g d a b) g d a b 1 2 (fun x y => x.sshiftRight (shAmt y)) s
def execMin (g : Guard) (d a b : SOp) (s : State) : Host.Outcome State Fault Refusal :=
  aluR (.min g d a b) g d a b 1 2 sMin s
def execMax (g : Guard) (d a b : SOp) (s : State) : Host.Outcome State Fault Refusal :=
  aluR (.max g d a b) g d a b 1 2 sMax s
def execMinu (g : Guard) (d a b : SOp) (s : State) : Host.Outcome State Fault Refusal :=
  aluR (.minu g d a b) g d a b 1 2 uMin s
def execMaxu (g : Guard) (d a b : SOp) (s : State) : Host.Outcome State Fault Refusal :=
  aluR (.maxu g d a b) g d a b 1 2 uMax s
def execMul (g : Guard) (d a b : SOp) (s : State) : Host.Outcome State Fault Refusal :=
  aluR (.mul g d a b) g d a b 3 3 (fun x y => x * y) s
def execMulh (g : Guard) (d a b : SOp) (s : State) : Host.Outcome State Fault Refusal :=
  aluR (.mulh g d a b) g d a b 3 3 mulHigh s
def execMulhu (g : Guard) (d a b : SOp) (s : State) : Host.Outcome State Fault Refusal :=
  aluR (.mulhu g d a b) g d a b 3 3 mulHighU s
def execDiv (g : Guard) (d a b : SOp) (s : State) : Host.Outcome State Fault Refusal :=
  aluR (.div g d a b) g d a b 18 18 divS s
def execDivu (g : Guard) (d a b : SOp) (s : State) : Host.Outcome State Fault Refusal :=
  aluR (.divu g d a b) g d a b 18 18 divU s
def execRem (g : Guard) (d a b : SOp) (s : State) : Host.Outcome State Fault Refusal :=
  aluR (.rem g d a b) g d a b 18 18 remS s
def execRemu (g : Guard) (d a b : SOp) (s : State) : Host.Outcome State Fault Refusal :=
  aluR (.remu g d a b) g d a b 18 18 remU s

def execAddi (g : Guard) (d a : SOp) (imm : BitVec 6) (s : State) : Host.Outcome State Fault Refusal :=
  aluI (.addi g d a imm) g d a (sx6 imm) (fun x y => x + y) s
def execAndi (g : Guard) (d a : SOp) (imm : BitVec 6) (s : State) : Host.Outcome State Fault Refusal :=
  aluI (.andi g d a imm) g d a (sx6 imm) (fun x y => x &&& y) s
def execOri (g : Guard) (d a : SOp) (imm : BitVec 6) (s : State) : Host.Outcome State Fault Refusal :=
  aluI (.ori g d a imm) g d a (sx6 imm) (fun x y => x ||| y) s
def execXori (g : Guard) (d a : SOp) (imm : BitVec 6) (s : State) : Host.Outcome State Fault Refusal :=
  aluI (.xori g d a imm) g d a (sx6 imm) (fun x y => x ^^^ y) s
def execShli (g : Guard) (d a : SOp) (imm : BitVec 6) (s : State) : Host.Outcome State Fault Refusal :=
  aluI (.shli g d a imm) g d a (zx6 imm) (fun x y => x <<< shAmt y) s
def execShri (g : Guard) (d a : SOp) (imm : BitVec 6) (s : State) : Host.Outcome State Fault Refusal :=
  aluI (.shri g d a imm) g d a (zx6 imm) (fun x y => x >>> shAmt y) s
def execSrai (g : Guard) (d a : SOp) (imm : BitVec 6) (s : State) : Host.Outcome State Fault Refusal :=
  aluI (.srai g d a imm) g d a (zx6 imm) (fun x y => x.sshiftRight (shAmt y)) s

/-- LI (R115): the result carries no mark. -/
def execLi (g : Guard) (d : SOp) (imm : BitVec 12) (s : State) : Host.Outcome State Fault Refusal :=
  issue (useS (.li g d imm) (some g) [] [d]) s fun _ s => .ok (s.landS d (imm.signExtend 64) false false 1 2)

/-- LIS (R115): reads d at issue. -/
def execLis (g : Guard) (d : SOp) (imm : BitVec 12) (s : State) : Host.Outcome State Fault Refusal :=
  issue (useS (.lis g d imm) (some g) [d] [d]) s fun vs s =>
    let v := srcAt vs 0
    .ok (s.landS d ((v.val <<< 12) ||| imm.zeroExtend 64) v.taint v.poison 1 2)

/-- SEL (R116): always issues; the predicate is data. -/
def execSel (q : Guard) (d a b : SOp) (s : State) : Host.Outcome State Fault Refusal :=
  issue (useS (.sel q d a b) none [a, b] [d]) s fun vs s =>
    match s.coreOf s.focus with
    | none => .ok s
    | some c =>
      let p := c.readQ q
      let m := marksOf vs
      .ok (s.landS d (if p.val then (srcAt vs 0).val else (srcAt vs 1).val) (m.1 || p.taint) (m.2 || p.poison) 1 2)

def execClz (g : Guard) (d a : SOp) (s : State) : Host.Outcome State Fault Refusal :=
  aluU (.clz g d a) g d a clz64 s
def execPopc (g : Guard) (d a : SOp) (s : State) : Host.Outcome State Fault Refusal :=
  aluU (.popc g d a) g d a popc64 s

/-- CMP (R120). -/
def execCmp (g : Guard) (k : Fin 8) (c : Cond) (a b : SOp) (s : State) : Host.Outcome State Fault Refusal :=
  issue (useS (.cmp g k c a b) (some g) [a, b] []) s fun vs s =>
    let m := marksOf vs
    .ok (s.landPair k (condHolds c (srcAt vs 0).val (srcAt vs 1).val) m.1 m.2)

/-- CMPI (R120): the immediate is sign-extended, for the unsigned conditions too. -/
def execCmpi (g : Guard) (k : Fin 8) (c : Cond) (a : SOp) (imm : BitVec 6) (s : State) :
    Host.Outcome State Fault Refusal :=
  issue (useS (.cmpi g k c a imm) (some g) [a] []) s fun vs s =>
    let m := marksOf vs
    .ok (s.landPair k (condHolds c (srcAt vs 0).val (sx6 imm)) m.1 m.2)

/-- PLOG (R121). -/
def execPlog (g : Guard) (k : Fin 8) (op : PlogOp) (x y : Fin 16) (s : State) : Host.Outcome State Fault Refusal :=
  issue (useS (.plog g k op x y) (some g) [] []) s fun _ s =>
    match s.coreOf s.focus with
    | none => .ok s
    | some c =>
      let p := c.readQ x
      let r := c.readQ y
      .ok (s.landPair k (plogHolds op p.val r.val) (p.taint || r.taint) (p.poison || r.poison))

/-- The address `imm` slots from the bundle that issues (R46, R126). -/
def labelAddr (pc : Nat) (imm : BitVec 16) : BitVec 32 := BitVec.ofInt 32 (pc + 4 * imm.toInt)

/-- PBT (R126). -/
def execPbt (g : Guard) (b : Fin 4) (imm : BitVec 16) (s : State) : Host.Outcome State Fault Refusal :=
  issue (useS (.pbt g b imm) (some g) [] []) s fun _ s =>
    match s.coreOf s.focus with
    | none => .ok s
    | some c => .ok (s.landB b (labelAddr c.pc imm))

/-- PBR (R126): its source counts as control (R97, R98). -/
def execPbr (g : Guard) (b : Fin 4) (a : SOp) (s : State) : Host.Outcome State Fault Refusal :=
  issue { useS (.pbr g b a) (some g) [] [] with srcs := [(a, true)], srcReason := some 0x0003 } s fun vs s =>
    .ok (s.landB b ((srcAt vs 0).val.truncate 32))

end Sys2Proof.Machine
end

