-- ==== Sys2Proof/Machine/Control.lean ====
section
/-! DEFINITION. Transfers of control and hardware loops (R122 to R130). -/

namespace Sys2Proof.Machine

/-- The delay bundles of a taken transfer (R122, R306). -/
def XferKind.delay : XferKind → Nat
  | .br => 2
  | .call => 3
  | .ret => 3
  | .jal => 1
  | .jr => 1
  | .eret => 1

/-- Takes a transfer: the delay bundles, CDEPTH and the pops follow when the bundle has issued. A transfer in a delay
bundle of another takes 0x0102 (R123). -/
def State.takeXfer (s : State) (kind : XferKind) (target : Nat) : Except Trap State :=
  match s.coreOf s.focus with
  | none => .ok s
  | some c =>
    if c.xfer.isSome then .error (s.trapAt 0x0102 (word (s.slotAddr c)))
    else .ok (s.modCore fun c => { c with ctl := some (.xfer ⟨kind, target, kind.delay, c.cdepth⟩) })

/-- The link address: the bundle that follows the n-th delay bundle in code-store order (R122, R127). -/
def State.linkAfter (s : State) (c : Core) (n : Nat) : BitVec 32 :=
  let m := s.codeOf s.focus
  let k := agentKind s.focus
  BitVec.ofNat 32 (nextBundle m k (c.follow m k n).pc)

/-- The meaning of a transfer through a register: target from b, link if any. -/
def xferB (i : Instr) (g : Guard) (kind : XferKind) (b : Fin 4) (s : State) : Host.Outcome State Fault Refusal :=
  issue (useS i (some g) [] []) s fun _ s =>
    match s.coreOf s.focus with
    | none => .ok s
    | some c => s.takeXfer kind (c.b.get b).toNat

def execBr (g : Guard) (b : Fin 4) (s : State) : Host.Outcome State Fault Refusal := xferB (.br g b) g .br b s

/-- CALL (R125, R127): at CDEPTH 15 it takes 0x0104; the link lands in b3. -/
def execCall (g : Guard) (b : Fin 4) (s : State) : Host.Outcome State Fault Refusal :=
  issue (useS (.call g b) (some g) [] []) s fun _ s =>
    match s.coreOf s.focus with
    | none => .ok s
    | some c =>
      if c.xfer.isNone && c.cdepth == 15 then .error (s.trapAt 0x0104 (word (s.slotAddr c)))
      else
        match s.takeXfer .call (c.b.get b).toNat with
        | .error e => .error e
        | .ok s1 => .ok (s1.landB 3 (s.linkAfter c 3))

def execRet (g : Guard) (s : State) : Host.Outcome State Fault Refusal := xferB (.ret g) g .ret 3 s

/-- JAL (R122, R128): the link lands in the register it names. -/
def execJal (g : Guard) (b : Fin 4) (imm : BitVec 16) (s : State) : Host.Outcome State Fault Refusal :=
  issue (useS (.jal g b imm) (some g) [] []) s fun _ s =>
    match s.coreOf s.focus with
    | none => .ok s
    | some c =>
      match s.takeXfer .jal (labelAddr c.pc imm).toNat with
      | .error e => .error e
      | .ok s1 => .ok (s1.landB b (s.linkAfter c 1))

def execJr (g : Guard) (b : Fin 4) (s : State) : Host.Outcome State Fault Refusal := xferB (.jr g b) g .jr b s

/-- LOOP (R129): a ninth level, or a body that ends past the enclosing one, takes 0x0104. -/
def execLoop (g : Guard) (a : SOp) (n : BitVec 12) (s : State) : Host.Outcome State Fault Refusal :=
  issue { useS (.loop g a n) (some g) [] [] with srcs := [(a, true)], srcReason := some 0x0004 } s fun vs s =>
    match s.coreOf s.focus with
    | none => .ok s
    | some c =>
      let m := s.codeOf s.focus
      let k := agentKind s.focus
      let cnt := (srcAt vs 0).val.toNat
      let lvl : LoopLevel :=
        { start := nthBundle m k 1 c.pc, last := nthBundle m k n.toNat c.pc, cnt := max cnt 1, supp := cnt == 0,
          cdepth := c.cdepth }
      if c.xfer.isSome then .error (s.trapAt 0x0102 (word (s.slotAddr c)))
      else if 8 ≤ c.loops.length then .error (s.trapAt 0x0104 (word (s.slotAddr c)))
      else
        match c.loops with
        | l :: _ =>
          if l.cdepth == c.cdepth && l.last < lvl.last then .error (s.trapAt 0x0104 (word (s.slotAddr c)))
          else .ok (s.modCore fun c => { c with ctl := some (.loop lvl) })
        | [] => .ok (s.modCore fun c => { c with ctl := some (.loop lvl) })

end Sys2Proof.Machine
end

