-- ==== Sys2Proof/Machine/Special.lean ====
section
/-! DEFINITION. Special registers (R103 to R110, R169, R348, R352, R354): what MFS reads and MTS writes. -/

namespace Sys2Proof.Machine

/-! ## Fields -/

def BankState.field : BankState → Nat
  | .on => 0
  | .ret => 1
  | .off => 2

/-- TIDL, TXY, CXY (R105). -/
def Tile.tidl (t : Tile) : Nat := t.glt % 2 ^ 15 * 256 + t.hix % 256
def Tile.txy (t : Tile) : Nat := t.ty % 16 * 16 + t.tx % 16
def Tile.cxy (t : Tile) (c : Cluster) : Nat :=
  t.site % 128 * 2 ^ 16 + c.oy % 8 * 2 ^ 12 + c.ox % 16 * 256 + siteY t.site % 8 * 16 + siteX t.site % 16

/-- REGION (R105). -/
def Region.word (r : Region) : Nat :=
  (r.mods - 1) % 2 ^ 16 * 2 ^ 48 + r.modIx % 2 ^ 16 * 2 ^ 32 + (r.th - 1) % 16 * 2 ^ 12 + (r.tw - 1) % 16 * 256 +
    (r.ch - 1) % 8 * 16 + (r.cw - 1) % 16

/-- STATUS (R106). -/
def Tile.status (t : Tile) (c : Cluster) : Nat :=
  c.fid % 16 * 2 ^ 20 + c.variant % 4 * 2 ^ 18 + boolNat t.rep.bit (2 ^ 17) + boolNat t.rec_.recBit (2 ^ 16) +
    boolNat t.rec_.tinv (2 ^ 15) + BankState.field t.bank2.st * 64 + BankState.field t.bank1.st * 16 +
    boolNat t.bankclr 1

/-- TAINT and TAINTQ (R109). -/
def Core.taintS (c : Core) : Nat :=
  (List.range 48).foldl (fun acc n => acc + boolNat ((c.s.toList.getD n .zero).taint && n != 0) (2 ^ n)) 0

def Core.taintQ (c : Core) : Nat :=
  boolNat c.l.taint (2 ^ 24) +
    (List.range 8).foldl (fun acc n => acc + boolNat (c.o.toList.getD n .zero).taint (2 ^ (16 + n))) 0 +
    (List.range 16).foldl (fun acc n => acc + boolNat ((c.q.toList.getD n .zero).taint && 2 ≤ n) (2 ^ n)) 0

/-- LDEPTH, and the level n counted from the outermost (R110). -/
def Core.ldepth (c : Core) : Nat := c.cdepth % 16 * 256 + c.loops.length % 16
def Core.level (c : Core) (n : Nat) : Option LoopLevel := c.loops.reverse[n]?

/-- A divisor set in the nibble layout (R352). -/
def Divs.nibbles (d : Divs) : Nat :=
  (d.cpy - 1) % 16 * 4096 + (d.vec - 1) % 16 * 256 + (d.mat - 1) % 16 * 16 + (d.ctl - 1) % 16

/-- Whether the idle target is ready for a switch point at schedule cycle p (R351). -/
def Clock.ready (k : Clock) (p : Nat) : Bool := k.target.isSome && k.progAt + 256 ≤ p

/-- CDIV (R352). -/
def Cluster.cdiv (c : Cluster) : Nat :=
  let k := c.clk
  boolNat k.liveB (2 ^ 51) + boolNat (k.ready c.scy) (2 ^ 50) + boolNat k.target.isSome (2 ^ 49) +
    boolNat k.pend.isSome (2 ^ 48) + (k.pend.map Divs.nibbles).getD 0 * 2 ^ 32 +
    (k.target.map Divs.nibbles).getD 0 * 2 ^ 16 + k.div.nibbles

/-- PWRLVL (R354). -/
def Tile.pwrlvl (t : Tile) (c : Cluster) (sus : Nat) : Nat :=
  t.nsw % 2 ^ 16 * 2 ^ 16 + boolNat t.stay (2 ^ 11) + t.lastLvl % 8 * 256 + sus % 8 * 16 + c.grant % 8

/-- SPCE and CSCE (R348). -/
def Tile.spce (t : Tile) : Nat := t.spceLast % 2 ^ 18 * 2 ^ 32 + t.spceCount % 2 ^ 32
def Tile.csce (t : Tile) : Nat := boolNat t.csceTape (2 ^ 63) + t.csceLast % 2 ^ 15 * 2 ^ 32 + t.csceCount % 2 ^ 32

/-! ## MFS -/

/-- The registers that every core has (R103): value by index, none for another index. -/
def Core.special (c : Core) (idx : Nat) : Option Nat :=
  if idx = 0x050 then some Config.gen
  else if idx = 0x051 then some Config.isaRev
  else if idx = 0x080 then some c.ldepth
  else if 0x088 ≤ idx ∧ idx ≤ 0x08F then some (((c.level (idx - 0x088)).map (·.cnt)).getD 0)
  else if 0x090 ≤ idx ∧ idx ≤ 0x097 then
    some (((c.level (idx - 0x090)).map fun l => l.last % 2 ^ 32 * 2 ^ 32 + l.start % 2 ^ 32).getD 0)
  else if 0x0A0 ≤ idx ∧ idx ≤ 0x0A3 then some (c.b.get (Fin.ofNat 4 (idx - 0x0A0))).toNat
  else none

/-- A special register of a tile at issue: its value and its taint column (R103). -/
def Tile.special (t : Tile) (r : Region) (c : Cluster) (sus : Nat) (idx : Nat) : Option (Nat × Bool) :=
  match t.core.special idx with
  | some v => some (v, false)
  | none =>
    if 0x010 ≤ idx ∧ idx ≤ 0x017 then some (t.lid.toList.getD (idx - 0x010) 0 % 2 ^ 16, false)
    else if 0x060 ≤ idx ∧ idx ≤ 0x063 then some (t.slerr.toList.getD (idx - 0x060) 0 % 2 ^ 32, true)
    else
      match idx with
      | 0x000 => some (t.tidl, true)
      | 0x001 => some (t.txy, false)
      | 0x002 => some (t.cxy c, true)
      | 0x003 => some (r.word, false)
      | 0x020 => some (t.status c, true)
      | 0x021 => some (t.fflags.toNat, true)
      | 0x022 => some (t.frm.toNat, false)
      | 0x023 => some (t.cause.word.toNat, true)
      | 0x024 => some (t.cause.faddr.toNat, true)
      | 0x025 => some (t.cause.fcyc, true)
      | 0x030 => some (r.launch, true)
      | 0x031 => some (Config.argBase, false)
      | 0x040 => some (t.core.taintS, true)
      | 0x041 => some (t.core.taintQ, true)
      | 0x064 => some (t.spce, true)
      | 0x065 => some (t.csce, true)
      | 0x070 => some (t.pwrlvl c sus, true)
      | 0x071 => some (c.cdiv, true)
      | _ => none

/-- The special register that the issuing core reads, with its taint; none where the core has no such index. -/
def State.readSpecial (s : State) (idx : Nat) : Option (Nat × Bool) :=
  match s.focus with
  | .lantern n =>
    if idx = 0x004 then some (n.val, false)
    else ((s.lanterns.get n).core.special idx).map fun v => (v, false)
  | .tile i =>
    match s.tile? i with
    | none => none
    | some t =>
      match s.region? t.region with
      | none => none
      | some r => t.special r (r.clusters.getD t.cluster .none) s.mod_.sus idx

/-- MFS (R104, R135). -/
def execMfs (g : Guard) (d : SOp) (idx : BitVec 12) (s : State) : Host.Outcome State Fault Refusal :=
  issue (useS (.mfs g d idx) (some g) [] [d]) s fun _ s =>
    match s.readSpecial idx.toNat with
    | some (v, taint) => .ok (s.landS d (word v) taint false 3 3)
    | none =>
      match s.coreOf s.focus with
      | some c => .error (s.trapAt 0x0104 (word (s.slotAddr c)))
      | none => .ok s

/-- MTS (R104, R135): the write lands one control cycle after issue; a read-only register keeps its value. -/
def execMts (g : Guard) (idx : BitVec 12) (a : SOp) (s : State) : Host.Outcome State Fault Refusal :=
  issue { useS (.mts g idx a) (some g) [] [] with srcs := [(a, true)], srcReason := some 0x0005, taped := true } s
    fun vs s =>
      if sregOn (agentKind s.focus) idx then
        .ok (s.modCore fun c => c.land ⟨.ctl, s.env.ctl + 1⟩ (.special idx (srcAt vs 0).val))
      else
        match s.coreOf s.focus with
        | some c => .error (s.trapAt 0x0104 (word (s.slotAddr c)))
        | none => .ok s

end Sys2Proof.Machine
end

