-- ==== Sys2Proof/Machine/Taper.lean ====
section
/-! DEFINITION. The Taper (R267 to R283): headers, the STATE and END records of a recording, TREC and TEND, and the
replay engine that reads a tape. -/

namespace Sys2Proof.Machine

/-! ## Headers (R269) -/

/-- The header bytes of a tile's tape, with the CRC over them and the record words. -/
def Tile.headerBytes (t : Tile) (l : Launch) : List Byte :=
  let r := t.rec_
  let flags := boolNat (r.reason == 0) 1 + boolNat r.partial_ 2 + boolNat r.ended 4
  let h := leBytes 4 0x4B575433 ++ leBytes 2 1 ++ leBytes 1 Config.gen ++ leBytes 1 r.variant ++
    leBytes 8 l.img.tthash.toNat ++ leBytes 1 r.fid ++ leBytes 1 flags ++ leBytes 2 r.reason ++
    leBytes 4 l.img.mapclass ++ leBytes 4 r.nrec ++ leBytes 4 t.posn ++ leBytes 8 r.invCyc ++ leBytes 4 r.invAddr ++
    leBytes 4 0 ++ leBytes 8 l.id ++ leBytes 4 0
  h ++ leBytes 4 (crc32c (h ++ t.tape.bytes 64 (8 * r.nrec)))

/-- Writes the header of the tape (R269, R283). -/
def Tile.writeHeader (t : Tile) (l : Launch) : Tile :=
  { t with tape := t.tape.write 0 (t.headerBytes l) false, rec_ := { t.rec_ with headed := true } }

/-- The header of a tape that is still without one when the launch ends (R283). -/
def Tile.finishTape (t : Tile) (l : Launch) : Tile :=
  if t.rec_.exists_ && !t.rec_.headed then t.writeHeader l else t

/-! ## STATE and END (R270, R279) -/

/-- The restore masks: what was written in the span and carries no taint. -/
def Tile.restoreMask (t : Tile) : BitVec 57 := t.rec_.wmask &&& ~~~(BitVec.ofNat 57
  (t.core.taintS + (t.core.taintQ / 2 ^ 16 % 512) * 2 ^ 48))
def Tile.restoreQ (t : Tile) : BitVec 16 := t.rec_.wqmask &&& ~~~(BitVec.ofNat 16 (t.core.taintQ % 2 ^ 16))

/-- The register at place n of the masks. -/
def maskReg (n : Nat) : SOp :=
  if h : n < 48 then .s ⟨n, h⟩ else if h : n - 48 < 8 then .o ⟨n - 48, h⟩ else .l

/-- The places set in a mask, ascending. -/
def placesOf (m n : Nat) : List Nat := (List.range n).filter fun i => bitOf m i

/-- The payload of a STATE record. -/
def Tile.statePayload (t : Tile) : List Nat :=
  let m := t.restoreMask
  let qv := (List.range 16).foldl (fun acc n =>
    acc + boolNat (2 ≤ n && (t.core.readQ (Fin.ofNat 16 n)).val) (2 ^ n)) 0
  let q := t.restoreQ.toNat / 4 * 4
  let wq := t.rec_.wqmask.toNat / 4 * 4
  [m.toNat, qv + q * 2 ^ 16 + wq * 2 ^ 32,
    (t.core.b.get 0).toNat + (t.core.b.get 1).toNat * 2 ^ 32, (t.core.b.get 2).toNat + (t.core.b.get 3).toNat * 2 ^ 32,
    t.rec_.wmask.toNat] ++ (placesOf m.toNat 57).map fun n => (t.core.readS (maskReg n)).val.toNat

/-- Writes a STATE record for a switch point, or 0xFFFF, and a resume bundle. -/
def Tile.emitState (t : Tile) (at_ : Stamp) (n addr : Nat) : Tile :=
  let p := t.statePayload
  t.emitWords at_ (recHead 6 (n % 2 ^ 16 * 2 ^ 44 + p.length * 2 ^ 32 + addr % 2 ^ 32) :: p)

/-- Writes END with the resume cycle. -/
def Tile.emitEnd (t : Tile) (at_ : Stamp) (resume : Nat) : Tile :=
  let t1 := t.emitWords at_ [recHead 0xF ((resume - t.rec_.last) * 2 ^ 48)]
  { t1 with rec_ := { t1.rec_ with ended := t1.rec_.reason == 0 } }

/-- What invalidates a tape at a STATE point (R274). -/
def Tile.checkPoint (t : Tile) (e : Env) (addr : Nat) : Tile :=
  let t1 := if t.core.loops ≠ [] ∨ t.core.cdepth ≠ 0 then t.invalidateTape 0x000A e.scy addr else t
  if e.ctl < t1.core.sLast then t1.invalidateTape 0x000B e.scy addr else t1

/-- Fills a gap before END with X NOPs. -/
def Tile.fillGap (t : Tile) (at_ : Stamp) (to_ : Nat) : Tile :=
  t.emitRecs at_ (fillers ((to_ - t.rec_.last) / 4095) t.rec_.last to_)

/-! ## TREC and TEND (R283) -/

/-- The prologue: a PATCH for each slot of the template and a GUARD for each entry of the guard list (R270). -/
def prologueWords (l : Launch) : List Nat :=
  (l.img.patches.flatMap fun p => [recHead 3 p.1, recHead 2 0, (l.args.getD p.2 0).toNat]) ++
    l.img.guards.flatMap fun g => [recHead 5 (g.1 % 2 ^ 12 * 2 ^ 48), g.2.toNat]

/-- Whether a bundle that issues now may hold TREC (R283): the first, or the first after a first-bundle WAITW. -/
def trecPlace (e : Env) (l : Launch) : Bool := e.scy == 0 || ((firstWaitw l.img.code l.img.entry).isSome && e.scy == e.dc)

/-- Starts a recording. -/
def Tile.startTape (t : Tile) (c : Cluster) (l : Launch) (e : Env) (addr : Nat) : Tile :=
  let t1 := { t with rec_ := { Recorder.reset with
    recBit := t.rec_.recBit, exists_ := true, open_ := true, variant := c.variant, fid := c.fid, last := e.scy } }
  let t2 := t1.emitWords ⟨e.scy, addr⟩ (prologueWords l)
  if l.img.guards.any fun g => l.args.getD g.1 0 != g.2 then t2.invalidateTape 0x000C e.scy addr else t2

/-- A misplaced or second TREC; the header of a tape that has ended is written again. -/
def Tile.strayTrec (t : Tile) (c : Cluster) (l : Launch) (e : Env) (addr : Nat) : Tile :=
  if t.rec_.exists_ then
    let t1 := t.invalidateTape 0x0009 e.scy addr
    if t.rec_.headed then t1.writeHeader l else t1
  else
    { t with rec_ := { t.rec_ with exists_ := true, tinv := true, reason := 0x0009, invCyc := e.scy, invAddr := addr,
                                   variant := c.variant, fid := c.fid } }.writeHeader l

/-- How an X slot of a tile uses registers; `taped` as R271 says. -/
def useX (i : Instr) (g : Guard) (srcs : List (SOp × Bool)) (dsts : List SOp) (taped : Bool) : Use :=
  { useT i g srcs dsts with taped := taped }

/-- A word of Taper memory; none past the end or where it is uncorrectable. -/
def Tile.taperWord (t : Tile) (k : Nat) : Option Nat :=
  if taperWords ≤ k ∨ (t.tape.mark k).err = .uncorrectable then none else some (t.tape.read (8 * k) 8)

/-- The word after the prologue that begins at word k (R270). -/
def Tile.afterPrologue (t : Tile) : (fuel k : Nat) → Nat
  | 0, k => k
  | fuel + 1, k =>
    match t.taperWord k with
    | none => k
    | some w =>
      if w / 2 ^ 60 = 3 ∧ bitsOf w 4 56 = 0 ∧ t.taperWord (k + 1) = some (recHead 2 0) then t.afterPrologue fuel (k + 3)
      else if w / 2 ^ 60 = 5 ∧ w % 2 ^ 48 = 0 then t.afterPrologue fuel (k + 2)
      else k

/-- Starts the replay of the loaded tape at its first record after the prologue (R278). -/
def Tile.startReplay (t : Tile) (scy : Nat) : Tile :=
  let k := t.afterPrologue taperWords (t.rep.base + 8)
  { t with rep := { t.rep with active := true, last := scy, queue := [], body := [], stateAt := none, endAt := none,
                               enter := none, prev := none, stateLast := false, pos := k, org := k, orgAt := scy,
                               orgState := none } }

/-- TREC (R278, R283). DEDUCED, log entry 92. -/
def execTrec (g : Guard) (s : State) : Host.Outcome State Fault Refusal :=
  issue (useX (.trec g) g [] [] false) s fun _ s =>
    match s.focusTile? with
    | none => .ok s
    | some t =>
      match s.launchOf t.region with
      | none => .ok s
      | some l =>
        let e := s.env
        let addr := s.slotAddr t.core
        if l.replay then
          if t.rep.ready then
            .ok ((s.modFocus fun t => t.startReplay e.scy).landK 1 (.replayBit true))
          else .ok s
        else if trecPlace e l && !t.rec_.recBit then
          .ok ((s.modFocus fun t => t.startTape (s.cluster t) l e addr).landK 1 (.recBit true))
        else .ok (s.modFocus fun t => t.strayTrec (s.cluster t) l e addr)

/-- Ends a recording at TEND: STATE and END where the tape is open and valid, and the header. A tape that has ended
before, at a HALT or with PARTIAL, takes no further records. DEDUCED, log entry 57. -/
def Tile.endTape (t : Tile) (l : Launch) (e : Env) (addr : Nat) : Tile :=
  let p : Stamp := ⟨e.scy, addr⟩
  let t1 := if t.rec_.open_ then (t.closeLevel p).checkPoint e addr else t
  let t2 := if t1.writesTape then ((t1.fillGap p e.scy).emitState p 0xFFFF t.core.pc).emitEnd p e.scy else t1
  { t2 with rec_ := { t2.rec_ with open_ := false, span := false, ended := t2.rec_.ended && t2.rec_.reason == 0 } }.writeHeader l

/-- TEND (R283). -/
def execTend (g : Guard) (s : State) : Host.Outcome State Fault Refusal :=
  issue (useX (.tend g) g [] [] false) s fun _ s =>
    match s.focusTile? with
    | none => .ok s
    | some t =>
      match s.launchOf t.region with
      | none => .ok s
      | some l =>
        if t.rec_.recBit then .ok ((s.modFocus fun t => t.endTape l s.env (s.slotAddr t.core)).landK 1 (.recBit false))
        else .ok s

/-- The recorder after a HALT whose CMD is written: END with DELTA 0, and no STATE (R271, R283). -/
def Tile.haltTape (t : Tile) (at_ : Stamp) : Tile :=
  if !t.recording then t
  else
    let t1 := t.closeLevel at_
    let t2 := if t1.writesTape then t1.emitEnd at_ t1.rec_.last else t1
    { t2 with rec_ := { t2.rec_ with open_ := false, span := false } }

/-! ## Reading a tape (R270, R277, R278) -/

/-- The values of the IMM records from word k on, of which a CMD asks for n; the word of one that is asked for and that
cannot be read or is malformed (R270, R278). -/
def Tile.immsAt (t : Tile) : (fuel n k : Nat) → Except Nat (List Word)
  | 0, _, _ => .ok []
  | fuel + 1, n, k =>
    match t.taperWord k with
    | some w =>
      if w = recHead 2 0 then
        match t.taperWord (k + 1) with
        | none => .error k
        | some v => (t.immsAt fuel (n - 1) (k + 2)).map (word v :: ·)
      else if n ≠ 0 && w / 2 ^ 60 == 2 then .error k
      else .ok []
    | none => if n = 0 then .ok [] else .error k

/-- The number of IMMs that a recorded instruction has (R271). -/
def immCount : Instr → Nat
  | .vscan .. | .vbcast .. | .viota .. | .agstr .. | .agadd .. | .hld .. | .hst .. | .hsetf .. | .scl ..
  | .ymset .. | .xmset .. | .vmset .. | .cfill .. | .rtset .. | .rld .. | .mts .. => 1
  | .vrand .. | .agset .. | .stage .. | .ratom .. | .stB .. | .stH .. | .stW .. | .stD .. => 2
  | .catom .. => 3
  | _ => 0

/-- The number of IMMs that an instruction word asks for: none where it is no valid instruction. -/
def immsWanted (w : Nat) : Nat :=
  match decodeSlot w with
  | .ok i => immCount i
  | .error _ => 0

/-- Whether an opcode of a class is one that R271 records. -/
def opTaped (cls op : Nat) : Bool :=
  match cls with
  | 0 => (0x32 ≤ op && op ≤ 0x35) || op == 0x3F
  | 6 => op == 0x01 || op == 0x06 || op == 0x07 || op == 0x08 || op == 0x09 || op == 0x0A || op == 0x0B ||
      op == 0x0E || op == 0x0F
  | _ => op != 0

/-- The class that a SLOT position holds (R37, R270). -/
def slotHolds (slot cls : Nat) : Bool :=
  match slot with
  | 0 => cls == 0 || cls == 6
  | 1 | 2 => cls == 1
  | 3 => cls == 2
  | 4 | 5 => cls == 3
  | 6 => cls == 4
  | _ => cls == 5

/-- Whether a command may follow one of a cycle and slot: those of one cycle stand in ascending SLOT order (R270). -/
def cmdAfter (prev : Option (Nat × Nat × Bool)) (at_ slot : Nat) : Bool :=
  match prev with
  | some (a, k, _) => a < at_ || (a == at_ && k < slot)
  | none => true

/-- Whether commands keep that order, from the one before them on (R270). -/
def cmdsOrdered : (prev : Option (Nat × Nat × Bool)) → List ReplayCmd → Bool
  | _, [] => true
  | p, c :: cs => cmdAfter p c.at_ c.slot && cmdsOrdered (some (c.at_, c.slot, false)) cs

/-- Whether a CMD is a filler: the X NOP in slot 0 with the longest DELTA (R270). -/
def isFiller (w delta slot : Nat) : Bool := w == 0x6000_0000 && delta == 4095 && slot == 0

/-- Whether a CMD keeps the rules of R270, given the cycle and slot of the CMD before it. -/
def cmdOk (w : Nat) (prev : Option (Nat × Nat × Bool)) (delta at_ slot : Nat) : Bool :=
  let cls := slotClass w
  let op := slotOp w
  w / 2 ^ 31 == 0 && bitsOf w 24 4 == 0 && slotHolds slot cls && cmdAfter prev at_ slot &&
    (!opAssigned cls op || opTaped cls op || isFiller w delta slot)

/-- Whether the IMMs read after a CMD are as many as its instruction has; of a word that is no valid instruction any
number is (R270, R271). -/
def immsRight (w n : Nat) : Bool :=
  match decodeSlot w with
  | .ok i => n == immCount i
  | .error _ => true

/-- The commands of the body of a REP: the last ones that make up m records, oldest first. -/
def bodyOf : List ReplayCmd → (m : Nat) → Option (List ReplayCmd)
  | [], m => if m = 0 then some [] else none
  | c :: cs, m =>
    if m = 0 then some []
    else if m < 1 + c.imms.length then none
    else (bodyOf cs (m - (1 + c.imms.length))).map (c :: ·)

/-- Adds strides to the values of a body, i times. -/
def stride (i : Nat) : List ReplayCmd → List Word → List ReplayCmd
  | [], _ => []
  | c :: cs, ks =>
    { c with imms := List.zipWith (fun v k => v + word i * k) c.imms (ks.take c.imms.length) } :: stride i cs (ks.drop c.imms.length)

/-- The words that a record takes. -/
def recordLen (w : Nat) : Nat :=
  match w / 2 ^ 60 with
  | 2 => 2
  | 4 => 1 + w % 2 ^ 16
  | 5 => 2
  | 6 => 1 + bitsOf w 32 12
  | _ => 1

/-- Whether an instruction word is HALT (R271, R372). -/
def isHaltWord (w : Nat) : Bool := slotClass w == 6 && slotOp w == 0x0E

/-- Counts the corrected words among n words of the tape from word k on (R348). -/
def Tile.countTape (t : Tile) (k n : Nat) : Tile := t.countCs true (t.tape.correctables (8 * k) (8 * n))

/-- Whether the payload of a STATE record, at word k with len words, can be read and keeps the zeros of R279, its restore
masks within its written masks. -/
def Tile.stateOk (t : Tile) (k len : Nat) : Bool :=
  let at_ (j : Nat) : Nat := (t.taperWord (k + 1 + j)).getD 0
  let within (m wm : Nat) : Bool := Nat.land m wm == m
  ((List.range len).all fun j => (t.taperWord (k + 1 + j)).isSome) && len == 5 + popCount 57 (at_ 0) &&
    [at_ 0, at_ 4].all (fun m => m % 2 == 0 && m / 2 ^ 57 == 0) && Nat.land (at_ 1) 0xFFFF_0003_0003_0003 == 0 &&
    within (at_ 0) (at_ 4) && within (bitsOf (at_ 1) 16 16) (bitsOf (at_ 1) 32 16)

/-- Reads the next record group into the engine; the word of a record that is malformed or cannot be read (0x0704).
DEDUCED, log entry 56. -/
def Tile.readRecord (t : Tile) : Except Nat Tile :=
  let r := t.rep
  match t.taperWord r.pos with
  | none => .error r.pos
  | some w =>
    match w / 2 ^ 60 with
    | 1 =>
      let at_ := r.last + bitsOf w 48 12
      let slot := bitsOf w 45 3
      let iw := w % 2 ^ 32
      if bitsOf w 32 13 ≠ 0 ∨ !cmdOk iw r.prev (bitsOf w 48 12) at_ slot then .error r.pos
      else
        match t.immsAt 4 (immsWanted iw) (r.pos + 1) with
        | .error k => .error k
        | .ok imms =>
          let c : ReplayCmd := ⟨at_, slot, BitVec.ofNat 32 w, imms, 8 * r.pos⟩
          let len := 1 + 2 * imms.length
          if !immsRight iw imms.length then .error r.pos
          else
            .ok { t.countTape r.pos len with
              rep := { r with pos := r.pos + len, last := at_, body := c :: r.body, queue := r.queue ++ [c],
                              prev := some (at_, slot, isHaltWord iw), stateLast := false } }
    | 4 =>
      let p := bitsOf w 48 12
      let n := bitsOf w 32 16
      let m := bitsOf w 16 16
      let k := w % 2 ^ 16
      let strides := (List.range k).map fun j => word ((t.taperWord (r.pos + 1 + j)).getD 0)
      let readable := (List.range k).all fun j => (t.taperWord (r.pos + 1 + j)).isSome
      match bodyOf r.body m with
      | none => .error r.pos
      | some rev =>
        let body := rev.reverse
        if n = 0 ∨ m < 2 ∨ 64 < m ∨ !readable ∨ (body.map (·.imms.length)).sum ≠ k then .error r.pos
        else
          let more := (List.range n).flatMap fun i =>
            (stride (i + 1) body strides).map fun c => { c with at_ := c.at_ + (i + 1) * p }
          if !cmdsOrdered r.prev more then .error r.pos
          else
            .ok { t.countTape r.pos (1 + k) with
              rep := { r with pos := r.pos + 1 + k, last := r.last + n * p, body := [], queue := r.queue ++ more,
                              prev := r.prev.map fun x => (x.1 + n * p, x.2), stateLast := false } }
    | 6 =>
      let len := bitsOf w 32 12
      if t.stateOk r.pos len then
        .ok { t.countTape r.pos (1 + len) with
          rep := { r with pos := r.pos + 1 + len, stateAt := some r.pos, stateLast := true } }
      else .error r.pos
    | 0xF =>
      let afterHalt := (r.prev.any fun x => x.2.2) && bitsOf w 48 12 == 0
      if w % 2 ^ 48 ≠ 0 ∨ !(r.stateLast || afterHalt) then .error r.pos
      else .ok { t.countTape r.pos 1 with rep := { r with endAt := some (r.last + bitsOf w 48 12) } }
    | _ => .error r.pos

/-- Reads until a command of a later cycle, or END, is known; the word of a bad record otherwise. -/
def Tile.readAhead (scy : Nat) : (fuel : Nat) → Tile → Tile × Option Nat
  | 0, t => (t, none)
  | fuel + 1, t =>
    if t.rep.endAt.isSome || t.rep.queue.any fun c => scy < c.at_ then (t, none)
    else
      match t.readRecord with
      | .error k => (t, some k)
      | .ok t1 => Tile.readAhead scy fuel t1

/-- Whether a STATE record stands at a Taper word and can be read whole. -/
def Tile.stateGood (t : Tile) (k : Nat) : Bool :=
  match t.taperWord k with
  | some w => w / 2 ^ 60 == 6 && t.stateOk k (bitsOf w 32 12)
  | none => false

/-- Reads on up to the record at word k. -/
def Tile.readTo (k : Nat) : (fuel : Nat) → Tile → Tile
  | 0, t => t
  | fuel + 1, t =>
    if k ≤ t.rep.pos then t
    else match t.readRecord with
      | .error _ => t
      | .ok t1 => Tile.readTo k fuel t1

/-- A resumed engine reads the records of its run again up to its position; what was to issue before the schedule cycle
has issued, and the queue of one that leaves its tape is empty (R374). -/
def Tile.reread (t : Tile) (scy : Nat) : Tile :=
  let r := t.rep
  if !r.active then t
  else
    let t1 := Tile.readTo r.pos taperWords
      { t with rep := { r with pos := r.org, last := r.orgAt, body := [], queue := [], stateAt := r.orgState, endAt := none,
                               prev := none, stateLast := r.orgState.isSome } }
    { t1 with rep := { t1.rep with
        queue := if r.enter.isSome then [] else t1.rep.queue.filter fun c => scy ≤ c.at_,
        pos := r.pos, stateAt := r.stateAt, endAt := r.endAt } }

/-- A record of tile i's tape that cannot be read, or is malformed, takes 0x0704 with its byte offset (R278). -/
def State.faultTape (s : State) (i : Nat) (t : Tile) (k slot : Nat) : State :=
  ((s.setTile i t).faultTile i 0x0704 (word (8 * k)) slot (s.cluster t).scy).modTile i fun t =>
    { t with rep := { t.rep with active := false } }

/-- REPLAY_CMD_ISSUE (R278): the engine of tile i reads its tape up to the present schedule cycle, so that the commands
of this cycle stand at the head of its queue, from where the step issues them as one bundle. A record that cannot be
read takes 0x0704. -/
def State.replayRead (s : State) (i : Nat) : State :=
  match s.tile? i with
  | none => s
  | some t =>
    if !t.rep.active then s
    else
      let scy := (s.cluster t).scy
      match Tile.readAhead scy (taperWords + 1) t with
      | (t1, none) => s.setTile i t1
      | (t1, some k) =>
        s.faultTape i t1 k (match t1.taperWord k with
          | some w => if w / 2 ^ 60 = 1 then bitsOf w 45 3 else 0
          | none => 0)

def execReplayCmdIssue (t : Nat) (s : State) : Host.Outcome State Fault Refusal := .next (s.replayRead t)

/-! ## Resuming fetch (R279, R280) -/

/-- Applies the STATE record at a Taper word: masked registers take their values clean, written ones without a value
read 0 tainted, and the b registers take theirs. -/
def Tile.applyState (t : Tile) (k : Nat) : Tile :=
  let at_ (j : Nat) : Nat := (t.taperWord (k + 1 + j)).getD 0
  let m := at_ 0
  let wm := at_ 4
  let qs := at_ 1
  let places := placesOf m 57
  let value (n : Nat) : SReg :=
    match places.findIdx? (· == n) with
    | some j => ⟨word (at_ (5 + j)), false, false⟩
    | none => ⟨0, true, false⟩
  let c1 := (placesOf (Nat.lor m wm) 57).foldl (fun c n => c.writeS (maskReg n) (value n)) t.core
  let qm := bitsOf qs 16 16
  let qw := bitsOf qs 32 16
  let c2 := (placesOf (Nat.lor qm qw) 16).foldl (fun (c : Core) n =>
    { c with q := c.q.set (Fin.ofNat 16 n) (if bitOf qm n then ⟨bitOf qs n, false, false⟩ else ⟨false, true, false⟩) }) c1
  let b (n : Nat) : BitVec 32 := BitVec.ofNat 32 (at_ (2 + n / 2) / 2 ^ (32 * (n % 2)))
  { t with core := { c2 with b := Vector.ofFn fun n => b n.val } }

/-- Ends a replay: the STATE record is applied, and fetch goes on at an address. -/
def Tile.resumeAt (t : Tile) (k addr : Nat) : Tile :=
  let t1 := t.applyState k
  { t1 with rep := { t1.rep with active := false, bit := false, queue := [], endAt := none, enter := none },
            core := { t1.core with pc := addr, xfer := none } }

/-- TAPE_END_RESUME (R280): at the cycle of END, once its commands have issued, the STATE record before it is applied and
fetch resumes at its address, or where a PSWITCH that leaves the variant goes on (R281); an END that follows a HALT has
nothing to apply. DEDUCED, log entry 86. -/
def State.tapeEnd (s : State) (i : Nat) : State :=
  match s.tile? i with
  | none => s
  | some t =>
    let scy := (s.cluster t).scy
    match t.rep.endAt, t.rep.active with
    | some e, true =>
      if scy < e || t.rep.queue.any fun c => c.at_ ≤ scy then s
      else
        match t.rep.stateAt with
        | some k =>
          if t.run = .done then s.setTile i { t with rep := { t.rep with active := false, bit := false } }
          else if !t.stateGood k then s.faultTape i t k 0
          else s.setTile i (t.resumeAt k (t.rep.enter.getD ((t.taperWord k).getD 0 % 2 ^ 32)))
        | none => s.setTile i { t with rep := { t.rep with active := false, bit := false } }
    | _, _ => s

def execTapeEndResume (t : Nat) (s : State) : Host.Outcome State Fault Refusal := .next (s.tapeEnd t)

/-! ## Tapes of other variants (R277, R281) -/

/-- The word of the STATE record for a switch point, searched from word k up to word `last`; the word of a record that
cannot be read otherwise. -/
def Tile.findState (t : Tile) (n last : Nat) : (fuel k : Nat) → Except Nat (Option Nat)
  | 0, _ => .ok none
  | fuel + 1, k =>
    if last ≤ k then .ok none
    else
      match t.taperWord k with
      | none => .error k
      | some w => if w / 2 ^ 60 = 6 ∧ bitsOf w 44 16 = n then .ok (some k) else t.findState n last fuel (k + recordLen w)

/-- The STATE record for switch point n in the tape whose header stands at word `base`. -/
def Tile.stateOf (t : Tile) (base n : Nat) : Except Nat (Option Nat) :=
  match t.taperWord (base + 3) with
  | none => .error base
  | some w => t.findState n (base + 8 + w % 2 ^ 32) taperWords (base + 8)

/-- The tape of a variant, among those that begin at word k and after, with a STATE record for switch point n: the
words of its header and of the record. -/
def Tile.tapeFor (t : Tile) (variant n : Nat) : (fuel k : Nat) → Except Nat (Option (Nat × Nat))
  | 0, _ => .ok none
  | fuel + 1, k =>
    if taperWords < k + 8 then .ok none
    else
      match t.taperWord k, t.taperWord (k + 3) with
      | some h, some w =>
        let go := t.tapeFor variant n fuel ((k + 8 + w % 2 ^ 32 + 7) / 8 * 8)
        if h % 2 ^ 32 ≠ 0x4B575433 then .ok none
        else if bitsOf h 56 8 ≠ variant then go
        else
          match t.stateOf k n with
          | .error e => .error e
          | .ok (some r) => .ok (some (k, r))
          | .ok none => go
      | _, _ => .error k

/-- The STATE record of switch point n in the current tape: the one just read, where it is of that point. -/
def Tile.stateHere (t : Tile) (n : Nat) : Except Nat (Option Nat) :=
  match t.rep.stateAt with
  | some k => if bitsOf ((t.taperWord k).getD 0) 44 16 = n then .ok (some k) else t.stateOf t.rep.base n
  | none => t.stateOf t.rep.base n

/-- A replayed PSWITCH that selects another variant (R281): the tape of that variant goes on from its STATE record of
the same switch point, or replay stops, and at the cycle of the next bundle this tape's record is applied and fetch goes
on at the switch-point table's address. A record that cannot be read is answered by its word (R267). -/
def Tile.switchTape (t : Tile) (n variant scy dc addr : Nat) : Except Nat Tile :=
  match t.tapeFor variant n 4096 0 with
  | .error k => .error k
  | .ok (some (base, k)) =>
    if !t.stateGood k then .error k
    else
      let next := k + recordLen ((t.taperWord k).getD 0)
      .ok { t with rep := { t.rep with base := base, pos := next, last := scy, body := [], queue := [], stateAt := some k,
                                       endAt := none, prev := none, stateLast := true, org := next, orgAt := scy,
                                       orgState := some k } }
  | .ok none =>
    match t.stateHere n with
    | .error k => .error k
    | .ok none => .error t.rep.base
    | .ok (some k) =>
      if !t.stateGood k then .error k
      else .ok { t with rep := { t.rep with queue := [], stateAt := some k, endAt := some (scy + dc), enter := some addr } }

end Sys2Proof.Machine
end

