-- ==== Sys2Proof/Machine/Timing.lean ====
section
/-! DEFINITION. The X class of the tiles but for TREC and TEND (R183, R335 to R347, R350 to R356, R359, R370 to R372),
and the events that belong to it: expiry of WAITS, hold cycles of REALIGN, bank wakes, window checks, and the latch of a
grant. -/

namespace Sys2Proof.Machine

/-! ## Variants and clocks -/

/-- The variant that a grant level selects (R333). -/
def Image.variantOf (g : Image) (level : Nat) : Nat := g.power.getD level 0

/-- The address of a variant in a table entry (R64). -/
def VarAddrs.at_ (v : VarAddrs) (variant : Nat) : Nat :=
  match variant with
  | 0 => v.dense
  | 1 => v.medium
  | _ => v.relaxed

/-- A divisor set from 16 bits in the nibble layout of DIVS (R61, R352). -/
def Divs.ofNibbles (n : Nat) : Divs :=
  ⟨bitsOf n 0 4 + 1, bitsOf n 4 4 + 1, bitsOf n 8 4 + 1, bitsOf n 12 4 + 1⟩

/-- The entry divisors of a variant (R61). -/
def Image.divsOf (g : Image) (variant : Nat) : Divs := .ofNibbles (bitsOf g.divs.toNat (16 * variant) 16)

/-- The set that the idle generator should hold (R351). -/
def Cluster.wanted (c : Cluster) (g : Image) : Option Divs :=
  let v := g.variantOf c.grant
  if v ≠ c.variant then some (g.divsOf v) else c.clk.pend

/-- The idle generator is programmed again when its target changes (R351). -/
def Cluster.retarget (c : Cluster) (g : Image) : Cluster :=
  let w := c.wanted g
  if w = c.clk.target then c else { c with clk := { c.clk with target := w, progAt := c.scy } }

/-- Changes cluster k of a region. -/
def State.modCluster (s : State) (region k : Nat) (f : Cluster → Cluster) : State :=
  s.modRegion region fun r => { r with clusters := r.clusters.modify k f }

/-- The image of the launch of a region. -/
def State.imageOf (s : State) (region : Nat) : Option Image := (s.launchOf region).map (·.img)

/-- The bundle that the issuing tile's pc names, as its instructions. -/
def State.bundleHere (s : State) : List Instr :=
  match s.coreOf s.focus with
  | none => []
  | some c =>
    match fetchBundle (s.codeOf s.focus) (agentKind s.focus) c.target c.pc with
    | .ok ws => ws.map (·.2)
    | .error _ => []

/-- Whether the issuing bundle is at non-zero loop or call depth, or a delay bundle (R356, R371). -/
def Core.nested (c : Core) : Bool := !c.loops.isEmpty || c.cdepth != 0 || c.xfer.isSome

/-! ## NOP, TRAP and the counters -/

def execXnop (_g : Guard) (s : State) : Host.Outcome State Fault Refusal := issueNop none s

/-- TRAP (R370): the command is recorded before the fault (R271). -/
def execTrap (g : Guard) (n : BitVec 8) (s : State) : Host.Outcome State Fault Refusal :=
  issue { useX (.trap g n) g [] [] false with only := none } s fun _ s =>
    let s1 := s.modFocus fun t => t.record ⟨s.env.scy, s.slotAddr t.core⟩ 0 (tapeWord (.trap g n)) []
    .ok (s1.takeFault (s.trapAt (0x0C00 + n.toNat) (word n.toNat)))

/-- RDCYC (R337). -/
def execRdcyc (g : Guard) (d : SOp) (s : State) : Host.Outcome State Fault Refusal :=
  issue (useX (.rdcyc g d) g [] [d] false) s fun _ s => .ok (s.landS d (word s.env.scy) false false 2 2)

/-- RDWALL (R337), which runs on Lanterns too. -/
def execRdwall (g : Guard) (d : SOp) (s : State) : Host.Outcome State Fault Refusal :=
  issue { useX (.rdwall g d) g [] [d] false with only := none } s fun _ s =>
    .ok (s.landS d (word s.wcy) true false 2 2)

/-! ## Waiting -/

/-- The target of the immediate form of WAITS (R342): the value in (W - 65,536, W + 65,536] with the given low bits. -/
def waitsTarget (w : Nat) (n : BitVec 17) : Int :=
  let lo : Int := (w : Int) - 65535
  lo + ((n.toNat : Int) - lo) % 131072

/-- A wait until schedule cycle T, or 0x0202 where the next bundle would already be later (R342). -/
def State.waitUntil (s : State) (t : Int) : Except Trap State :=
  if t < (s.env.scy : Int) + s.env.dc then .error (s.trapAt 0x0202 (BitVec.ofInt 64 t))
  else .ok (s.modFocus fun x => { x with run := .waiting t.toNat })

def execWaitsImm (g : Guard) (n : BitVec 17) (s : State) : Host.Outcome State Fault Refusal :=
  issue (useX (.waitsImm g n) g [] [] false) s fun _ s => s.waitUntil (waitsTarget s.env.scy n)

def execWaitsReg (g : Guard) (a : SOp) (s : State) : Host.Outcome State Fault Refusal :=
  issue (useX (.waitsReg g a) g [(a, true)] [] false) s fun vs s => s.waitUntil (srcAt vs 0).val.toNat

/-- WAITW (R343): the wait is made before the first bundle issues; anywhere else it takes 0x0104. -/
def execWaitw (g : Guard) (j : Fin 8) (s : State) : Host.Outcome State Fault Refusal :=
  issue (useX (.waitw g j) g [] [] false) s fun _ s => if s.env.scy = 0 then .ok s else .error s.badOperand

/-- WAITS_EXPIRY (R342): a tile whose target has come issues again, at the next control-cycle start. -/
def Tile.endWait (t : Tile) (scy : Nat) : Tile :=
  match t.run with
  | .waiting u => if u ≤ scy then { t with run := .running } else t
  | _ => t

def execWaitsExpiry (t : Nat) (s : State) : Host.Outcome State Fault Refusal :=
  .next (s.modTile t fun x => x.endWait (s.cluster x).scy)

/-! ## REALIGN -/

/-- REALIGN (R347): the hold follows in each cluster once its tiles have issued. -/
def execRealign (g : Guard) (s : State) : Host.Outcome State Fault Refusal :=
  issue (useX (.realign g) g [] [] true) s fun _ s => .ok (s.pushSync .realign)

/-- REALIGN_HOLD_END (R347): one reference cycle of a cluster's hold passes; with the last one DRIFT drops by the cycles
held, or by those after a sample that fell within the hold, which saw the cycles up to its own (R345). -/
def State.holdCycle (s : State) (r k : Nat) : State :=
  match s.region? r with
  | none => s
  | some x =>
    let c := x.clusters.getD k .none
    let held := if s.wcy % 4096 = 0 then 0 else c.held + 1
    if c.hold = 0 then s
    else if c.hold = 1 then
      (s.modCluster r k fun c => { c with hold := 0, held := 0 }).modLamp c.site fun l => { l with drift := l.drift - held }
    else s.modCluster r k fun c => { c with hold := c.hold - 1, held := held }

def execRealignHoldEnd (r c : Nat) (s : State) : Host.Outcome State Fault Refusal := .next (s.holdCycle r c)

/-! ## Clocks and switch points -/

/-- CLKDIV (R353). -/
def execClkdiv (g : Guard) (dc dm dv dk : Fin 8) (s : State) : Host.Outcome State Fault Refusal :=
  issue (useX (.clkdiv g dc dm dv dk) g [] [] true) s fun _ s =>
    match s.focusTile? with
    | none => .ok s
    | some t =>
      match s.imageOf t.region with
      | none => .ok s
      | some img =>
        .ok (s.modCluster t.region t.cluster fun c =>
          { c with clk := { c.clk with pend := some ⟨dc.val + 1, dm.val + 1, dv.val + 1, dk.val + 1⟩ } }.retarget img)

/-- Whether a PSWITCH at schedule cycle p stays in its variant (R356). -/
def switchStays (img : Image) (c : Cluster) (core : Core) (p : Nat) : Bool :=
  let v := img.variantOf c.grant
  v == c.variant || !(c.clk.target == some (img.divsOf v) && c.clk.ready p) || core.nested

/-- The address at which the variant entered goes on: the bundle after its switch-point bundle (R356). -/
def State.enterAddr (s : State) (img : Image) (n v : Nat) : Nat :=
  nextBundle (s.codeOf s.focus) .tile ((img.switches.getD n ⟨0, 0, 0⟩).at_ v)

/-- What a tile does at a PSWITCH (R356, R281); the cluster hands over at the end of the cycle. A record of its tape that
cannot be read takes 0x0704 (R267). -/
def State.switchPoint (s : State) (t : Tile) (img : Image) (n : Nat) : Except Trap State :=
  let c := s.cluster t
  let e := s.env
  let v := img.variantOf c.grant
  let stay := switchStays img c t.core e.scy
  let next := nextBundle (s.codeOf s.focus) .tile t.core.pc
  let s1 := s.modFocus fun t =>
    let t1 := { t with nsw := t.nsw + 1, lastLvl := c.grant, stay := v != c.variant && stay }
    if t1.recording then
      let t2 := t1.checkPoint e (s.slotAddr t.core)
      { t2 with rec_ := { t2.rec_ with point := some ⟨n, next, s.slotAddr t.core, !stay⟩ } }
    else t1
  let done (u : State) : State := u.pushSync (.pswitch n c.grant (if stay then none else some v))
  if stay then .ok (done s1)
  else if s.imms.isSome then
    match t.switchTape n v e.scy e.dc (s.enterAddr img n v) with
    | .error k => .error (s.trapAt 0x0704 (word (8 * k)))
    | .ok t1 => .ok (done (s1.modFocus fun u => { u with rep := t1.rep }))
  else .ok (done (s1.modCore fun c => { c with ctl := some (.goto (s.enterAddr img n v)) }))

/-- PSWITCH (R356). -/
def execPswitch (g : Guard) (n : BitVec 12) (s : State) : Host.Outcome State Fault Refusal :=
  issue (useX (.pswitch g n) g [] [] true) s fun _ s =>
    match s.focusTile? with
    | none => .ok s
    | some t =>
      match s.imageOf t.region with
      | none => .ok s
      | some img =>
        if n = 0 ∨ img.switches.length ≤ n.toNat then .error s.badOperand
        else s.switchPoint t img n.toNat

/-- The STATE record of a PSWITCH, after the commands of its bundle; where the variant changes the tape ends there
with PARTIAL (R279, R281). `dc` is the control divisor. DEDUCED, log entry 57. -/
def Tile.closePoint (t : Tile) (l : Launch) (cyc dc : Nat) : Tile :=
  match t.rec_.point with
  | none => t
  | some x =>
    let p : Stamp := ⟨cyc, x.addr⟩
    let t0 := { t with rec_ := { t.rec_ with point := none } }
    if !t0.recording then t0
    else
      let t1 := (t0.closeLevel p).emitState p x.n x.next
      if !x.leaving then t1
      else
        let t2 := t1.emitEnd p (cyc + dc)
        let t3 := { t2 with rec_ := { t2.rec_ with partial_ := true, open_ := false, span := false } }
        (t3.writeHeader l)

/-! ## FIDSET -/

/-- Whether a latched multiplication still runs or waits at matrix cycle m. -/
def MCtx.multiplies (c : MCtx) (m : Nat) : Bool :=
  (match c.op with
    | .mmul .. => true
    | .mmulb .. => true
    | _ => false) && m ≤ c.base + c.mulLast

/-- Whether a level would put a sign pair of a latched multiplication on a dim slice (R166). -/
def MCtx.signDim (c : MCtx) (level : Nat) : Bool :=
  signOnDim (hPlanes c.ha) (hPlanes c.hb) (hSigned c.ha) (hSigned c.hb) c.steps level

/-- FIDSET (R183). DEDUCED, log entry 99. -/
def execFidset (g : Guard) (level : Fin 8) (s : State) : Host.Outcome State Fault Refusal :=
  issue (useX (.fidset g level) g [] [] true) s fun _ s =>
    match s.focusTile? with
    | none => .ok s
    | some t =>
      match t.mctx.find? fun c => c.multiplies s.env.mat && c.signDim level.val with
      | some c => .error (s.trapAt 0x0402 (word (hBase c.ha)))
      | none => .ok (s.modFocus fun t => { t with pendFid := some (level.val, s.env.scy) })

/-! ## Window checks -/

/-- WCHK (R341). -/
def execWchk (g : Guard) (w : Fin 16) (p : Fin 2) (lead : BitVec 13) (s : State) : Host.Outcome State Fault Refusal :=
  issue (useX (.wchk g w p lead) g [] [] true) s fun _ s =>
    match s.focusTile? with
    | none => .ok s
    | some t =>
      let x := t.wins.get w
      let need := s.env.scy + lead.toNat
      if lead.toNat < 96 then .error (s.trapAt 0x0205 (word need))
      else if x.chk.isSome then .error (s.trapAt 0x0307 (word (hBase x.handle)))
      else if x.mode ≠ .streaming ∧ p ≠ 0 then .error s.badOperand
      else .ok (s.modFocus fun t => t.modWin w fun x => { x with chk := some need, chkPar := p, raised := false })

/-- Raises a stall request (R25). -/
def State.raiseStall (s : State) (region : Nat) (by_ : StallBy) : State :=
  s.modRegion region fun r => { r with stalls := r.stalls ++ [⟨by_, s.wcy, none⟩] }

/-- Withdraws the requests of one source (R25). -/
def State.withdrawStall (s : State) (region : Nat) (by_ : StallBy) : State :=
  s.modRegion region fun r =>
    { r with stalls := r.stalls.map fun x => if x.by_ = by_ ∧ x.withdrawn = none then { x with withdrawn := some s.wcy } else x }

/-- WINDOW_CHECK_EVAL (R340): from 96 cycles before the need cycle on, a check that is not satisfied holds a stall
request, and one that is satisfied ends. -/
def State.evalCheck (s : State) (i : Nat) (w : Fin 16) : State :=
  match s.tile? i with
  | none => s
  | some t =>
    let x := t.wins.get w
    match x.chk with
    | none => s
    | some n =>
      if (s.cluster t).scy + Config.treeLatency < n then s
      else if x.satisfied then
        let s1 := s.modTile i fun t => t.modWin w fun x => { x with chk := none, raised := false }
        if x.raised then s1.withdrawStall t.region (.window i w) else s1
      else if x.raised then s
      else
        let s1 := s.modTile i fun t => t.modWin w fun x => { x with raised := true }
        (s1.raiseStall t.region (.window i w)).modRegion t.region fun r => { r with wreq := r.wreq + 1 }

def execWindowCheckEval (t : Nat) (w : Fin 16) (s : State) : Host.Outcome State Fault Refusal := .next (s.evalCheck t w)

/-! ## Grants -/

/-- GRANT_LATCH (R355): cluster c of region r takes the changes of grant whose schedule cycle has come. -/
def State.latchGrant (s : State) (r c : Nat) : State :=
  match s.imageOf r with
  | none => s
  | some img =>
    s.modCluster r c fun k =>
      let due := k.grants.filter fun x => x.1 ≤ k.scy
      let level := due.foldl (fun _ x => x.2) k.grant
      ({ k with grant := level, grants := k.grants.filter fun x => k.scy < x.1 }).retarget img

def execGrantLatch (r c : Nat) (s : State) : Host.Outcome State Fault Refusal := .next (s.latchGrant r c)

/-! ## REPB and HALT -/

def isPublish : Instr → Bool
  | .publish _ => true
  | _ => false

/-- Whether a PUBLISH of the bundle does not issue, its guard suppressing it (R371). -/
def State.publishSuppressed (s : State) (c : Core) : Bool :=
  s.imms.isNone && s.bundleHere.any fun i => match i with
    | .publish g => !(c.readQ g).val
    | _ => false

/-- REPB (R371). -/
def execRepb (g : Guard) (n : BitVec 12) (s : State) : Host.Outcome State Fault Refusal :=
  issue (useX (.repb g n) g [] [] true) s fun _ s =>
    match s.focusTile? with
    | none => .ok s
    | some t =>
      if s.publishSuppressed t.core then .error (s.trapAt 0x0102 (word (s.slotAddr t.core)))
      else if n = 0 ∨ ((s.imageOf t.region).map (·.replays.length)).getD 0 < n.toNat ∨ t.core.nested then
        .error s.badOperand
      else .ok (s.pushSync (.repb n.toNat))

/-- HALT (R372): its command is recorded and the tape ends (R271). -/
def execHalt (g : Guard) (s : State) : Host.Outcome State Fault Refusal :=
  issue (useX (.halt g) g [] [] false) s fun _ s =>
    let s1 := s.modFocus fun t =>
      let p : Stamp := ⟨s.env.scy, s.slotAddr t.core⟩
      let t1 := (t.record p 0 (tapeWord (.halt g)) []).haltTape p
      { t1 with run := .done }
    .ok (s1.pushSync .halt)

/-! ## Register banks (R359) -/

/-- The register of a bank that an effect will write. -/
def Effect.intoBank (b : BankSel) : Effect → Option SOp
  | .reg d _ => if regBank d = some b then some d else none
  | _ => none

/-- The register of a bank that a pending access will write. -/
def AccOp.intoBank (b : BankSel) : AccOp → Option SOp
  | .load _ _ _ d => if regBank d = some b then some d else none
  | .atom _ _ _ _ d => if regBank d = some b then some d else none
  | _ => none

/-- The S destination and guard of a K instruction (R147). -/
def destK : Instr → Option (Guard × SOp)
  | .agout g d _ => some (g, d)
  | .agrd g d _ _ => some (g, d)
  | .hgetf g d _ _ => some (g, d)
  | .vmget g d _ => some (g, d)
  | .mkget g d _ => some (g, d)
  | _ => none

/-- The instructions of the present bundle that issue beside this one: those fetched whose guard is true, or the
commands of the tape for the same cycle. -/
def State.besides (s : State) (t : Tile) : List Instr :=
  if s.imms.isSome then
    (t.rep.queue.filter fun c => c.at_ ≤ s.env.scy).filterMap fun c => match decodeSlot c.word.toNat with
      | .ok i => some i
      | .error _ => none
  else
    s.bundleHere.filter fun i => match destK i with
      | some (g, _) => (t.core.readQ g).val
      | none => false

/-- A register of the bank with a result in flight, if any. -/
def State.inFlight (s : State) (t : Tile) (b : BankSel) : Option SOp :=
  ((t.core.lands.filterMap fun x => x.eff.intoBank b) ++ (t.accs.filterMap fun x => x.op.intoBank b) ++
    ((s.besides t).filterMap fun i => (destK i).bind fun x => if regBank x.2 = some b then some x.2 else none)).head?

/-- BANKPWR (R359). DEDUCED, log entry 60. -/
def execBankpwr (g : Guard) (b : BankSel) (st : BankState) (s : State) : Host.Outcome State Fault Refusal :=
  issue (useX (.bankpwr g b st) g [] [] true) s fun _ s =>
    match s.focusTile? with
    | none => .ok s
    | some t =>
      let now := (t.bankOf b).st
      match st with
      | .on =>
        if now = .on then .ok s
        else .ok (s.modFocus fun t =>
          t.setBank b ⟨now, some ⟨.ctl, s.env.ctl + (if now = .ret then 8 else 16)⟩⟩)
      | _ =>
        match s.inFlight t b with
        | some d => .error (s.trapAt 0x0501 (word (regNumber d)))
        | none => if now = st then .ok s else .ok (s.landK 1 (.bank b st))

/-- BANK_WAKE (R359): a bank whose wake time has come is on. -/
def Tile.wakeBanks (t : Tile) (e : Env) : Tile :=
  [BankSel.bank1, BankSel.bank2].foldl (fun t b =>
    match (t.bankOf b).wake with
    | some d => if e.reached d then t.landBank b .on else t
    | none => t) t

def execBankWake (t : Nat) (s : State) : Host.Outcome State Fault Refusal :=
  .next (s.modTile t fun x => x.wakeBanks (s.tileEnv x))

end Sys2Proof.Machine
end

