-- ==== Sys2Proof/Machine/Image.lean ====
section
/-! DEFINITION. Timetable images: the header, the directory and the sections, and the checks that refuse an image
(R19, R61 to R65, R222, R276, R325, R330 to R333, R343, R364, R381, R382). -/

namespace Sys2Proof.Machine

/-! ## Fields of bytes -/

/-- A list of bytes cut into entries of n bytes. -/
def entries (n : Nat) : (count : Nat) → List Byte → List (List Byte)
  | 0, _ => []
  | k + 1, bs => bs.take n :: entries n k (bs.drop n)

/-- The entries of a section whose size is a multiple of n; none for another size. -/
def cutBytes (n : Nat) (bs : List Byte) : Option (List (List Byte)) :=
  if bs.length % n = 0 then some (entries n (bs.length / n) bs) else none

/-- Applies a parser to every entry; none when one fails. -/
def parseAll {α : Type} (f : List Byte → Option α) : List (List Byte) → Option (List α)
  | [] => some []
  | e :: es =>
    match f e, parseAll f es with
    | some x, some xs => some (x :: xs)
    | _, _ => none

/-! ## Shape (R19) -/

/-- The product of the extents of the levels of a kind and axis. -/
def extentOf (loops : List LoopEntry) (kind axis : Nat) : Nat :=
  ((loops.filter fun l => l.kind == kind && l.axis == axis).map (·.ext)).prod

def Image.tw (g : Image) : Nat := extentOf g.loops 1 1
def Image.th (g : Image) : Nat := extentOf g.loops 1 2
def Image.cw (g : Image) : Nat := extentOf g.loops 2 1
def Image.ch (g : Image) : Nat := extentOf g.loops 2 2
def Image.mods (g : Image) : Nat := extentOf g.loops 3 0

/-- REGION[15:0] of the shape (R105). -/
def Image.shape16 (g : Image) : Nat :=
  (g.th - 1) % 16 * 4096 + (g.tw - 1) % 16 * 256 + (g.ch - 1) % 8 * 16 + (g.cw - 1) % 16

/-! ## Live-map class (R325) -/

def Image.rmask (g : Image) : Nat := g.mapclass % 2 ^ 16
def Image.pin (g : Image) : Nat := bitsOf g.mapclass 16 8

/-- Whether a set of removed rows leaves no tile grid: two adjacent, or five or more (R11, R327). -/
def noGrid (rmask : Nat) : Bool :=
  5 ≤ popCount 16 rmask || (List.range 15).any fun y => bitOf rmask y && bitOf rmask (y + 1)

/-- Whether the rectangle of a pinned image passes the field (R325). -/
def Image.pinOut (g : Image) : Bool :=
  let n := g.pin - 1
  10 < siteX n + g.cw || 8 < siteY n + g.ch

/-! ## Sections -/

/-- A loop-table entry (R332). -/
def parseLoop (bs : List Byte) : Option LoopEntry :=
  let v := leNat bs
  let kind := v % 4
  let axis := bitsOf v 2 2
  let ext := bitsOf v 16 16
  let spatial : Bool := kind == 1 || kind == 2
  let bad : Bool := v / 2 ^ 32 != 0 || bitsOf v 4 12 != 0 || axis == 3 || ext == 0 || (spatial == (axis == 0))
  if bad then none else some ⟨kind, axis, ext⟩

/-- The loop table and the limits of R19. -/
def parseLoops (bs : List Byte) : Option (List LoopEntry) :=
  match (cutBytes 8 bs).bind (parseAll parseLoop) with
  | none => none
  | some ls =>
    if ls.isEmpty ∨ 8 < ls.length ∨ 16 < extentOf ls 1 1 ∨ 16 < extentOf ls 1 2 ∨ 10 < extentOf ls 2 1 ∨ 8 < extentOf ls 2 2
    then none
    else some ls

/-- An address of a variant: inside the code section for a present variant, all ones for an absent one (R64, R65). That any
other value for an absent variant refuses the image is DEDUCED, log entry 61. -/
def addrFits (code : Nat) (present : Bool) (a : Nat) : Bool :=
  if present then a % 4 == 0 && a + 3 < code else a == 0xFFFF_FFFF

/-- Three variant addresses that fit the image's flags. -/
def parseAddrs (code flags : Nat) (bs : List Byte) : Option VarAddrs :=
  let v : VarAddrs := ⟨getLE bs 0 4, getLE bs 4 4, getLE bs 8 4⟩
  if addrFits code true v.dense && addrFits code (bitOf flags 0) v.medium && addrFits code (bitOf flags 1) v.relaxed then some v
  else none

/-- A switch-point table entry (R64). -/
def parseSwitch (code flags : Nat) (bs : List Byte) : Option VarAddrs :=
  if getLE bs 12 4 ≠ 0 then none else parseAddrs code flags bs

/-- The switch-point table; entry 0 starts the dense variant at ENTRY (R64). That a table with another entry 0, or with none,
refuses the image is DEDUCED, log entry 61. -/
def parseSwitches (code flags entry : Nat) (bs : List Byte) : Option (List VarAddrs) :=
  match (cutBytes 16 bs).bind (parseAll (parseSwitch code flags)) with
  | some (v :: vs) => if v.dense = entry then some (v :: vs) else none
  | _ => none

/-- The power schedule table (R333). -/
def parsePower (flags : Nat) (bs : List Byte) : Option (List Nat) :=
  let vs := (bs.take 8).map (·.toNat)
  let ok (v : Nat) : Bool := v == 0 || (v == 1 && bitOf flags 0) || (v == 2 && bitOf flags 1)
  if bs.length = 16 ∧ vs.all ok ∧ (bs.drop 8).all (· == 0) then some vs else none

/-- A replay-table entry and its number (R364). -/
def parseReplay (code flags : Nat) (bs : List Byte) : Option (Nat × VarAddrs × Nat) :=
  match parseAddrs code flags (bs.drop 4) with
  | none => none
  | some v => if getLE bs 24 8 ≠ 0 then none else some (getLE bs 0 4, v, getLE bs 16 8)

/-- The replay table: the numbers run 1, 2, …, at most 4,095. -/
def parseReplays (code flags : Nat) (bs : List Byte) : Option (List (VarAddrs × Nat)) :=
  match (cutBytes 32 bs).bind (parseAll (parseReplay code flags)) with
  | none => none
  | some rs =>
    if rs.map (·.1) = (List.range rs.length).map (· + 1) ∧ rs.length ≤ 4095 then some (rs.map (·.2)) else none

/-- A patch-template entry (R276). -/
def parsePatch (bs : List Byte) : Option (Nat × Nat) :=
  let v := leNat bs
  if bitsOf v 4 28 ≠ 0 ∨ v / 2 ^ 48 ≠ 0 then none else some (v % 16, bitsOf v 32 16)

/-- The patch template; no slot twice. -/
def parsePatches (bs : List Byte) : Option (List (Nat × Nat)) :=
  match (cutBytes 8 bs).bind (parseAll parsePatch) with
  | none => none
  | some ps => if ps.isEmpty ∨ 16 < ps.length ∨ ¬ (ps.map (·.1)).Nodup then none else some ps

def parseGuard (bs : List Byte) : Option (Nat × Word) :=
  if getLE bs 2 6 ≠ 0 then none else some (getLE bs 0 2, word (getLE bs 8 8))

def parseGuards (bs : List Byte) : Option (List (Nat × Word)) :=
  match (cutBytes 16 bs).bind (parseAll parseGuard) with
  | none => none
  | some gs => if gs.isEmpty ∨ 64 < gs.length then none else some gs

/-- A pinned page (R330, R331, R222). -/
def parsePage (bs : List Byte) : Option Page :=
  let lo := getLE bs 0 8
  let hi := getLE bs 8 8
  let sz := lo % 16
  let size := 2 ^ (16 + sz)
  let p : Page :=
    { kind := hi / 2 ^ 62, frame := hi % 2 ^ 48 * 2 ^ 16, va := bitsOf lo 16 32 * 2 ^ 16, hc := bitOf lo 10,
      rp := bitOf lo 9, ap := bitOf lo 8, wt := bitOf lo 7, ro := bitOf lo 6, rd := bitOf lo 5, size := size }
  let reserved : Bool := bitsOf hi 48 14 != 0 || lo / 2 ^ 48 != 0 || bitsOf lo 11 5 != 0 || bitOf lo 4
  let frameBad : Bool :=
    match p.kind with
    | 0 => decide (80 ≤ p.frame / 2 ^ 32)
    | 1 => decide (2 ^ 32 < p.frame + size)
    | _ => false
  let attrBad : Bool := (p.hc && (p.rp || p.ap || p.wt)) || (p.rp && p.kind == 2)
  if reserved || p.kind == 3 || sz == 15 || p.va % size != 0 || p.frame % size != 0 || frameBad || attrBad then none
  else some p

/-- Whether no two pages overlap in VA. -/
def pagesApart : List Page → Bool
  | [] => true
  | p :: ps => ps.all (fun q => p.va + p.size ≤ q.va || q.va + q.size ≤ p.va) && pagesApart ps

def parsePages (bs : List Byte) : Option (List Page) :=
  if bs.isEmpty ∨ 3072 < bs.length then none
  else
    match (cutBytes 16 bs).bind (parseAll parsePage) with
    | none => none
    | some ps => if pagesApart ps then some ps else none

/-- The scratchpad initial image: its load address and bytes (R63, R65). That a load address that is not 64-byte aligned, or a
section shorter than its header, refuses the image is DEDUCED, log entry 61. -/
def parseData (bs : List Byte) : Option (Nat × List Byte) :=
  let h := getLE bs 0 8
  let data := bs.drop 8
  if bs.length < 8 ∨ h / 2 ^ 22 ≠ 0 ∨ h % 64 ≠ 0 ∨ Config.argBase < h + data.length then none else some (h, data)

/-! ## The directory (R62, R63) -/

structure Section where
  ty : Nat
  off : Nat
  size : Nat
  crc : Nat
  deriving DecidableEq, Repr

def sectionTypes : List Nat := [0x01, 0x10, 0x11, 0x20, 0x30, 0x40, 0x41, 0x50, 0x60]

/-- A directory entry (R62). That an OFFSET that is not 8-byte aligned refuses the image is DEDUCED, log entry 61. -/
def parseSection (bs : List Byte) : Option Section :=
  let x : Section := ⟨getLE bs 0 2, getLE bs 4 4, getLE bs 8 4, getLE bs 12 4⟩
  if getLE bs 2 2 ≠ 0 ∨ x.off % 8 ≠ 0 then none else some x

/-- Whether no two sections share a byte; an empty one shares none. -/
def sectionsApart : List Section → Bool
  | [] => true
  | x :: xs => xs.all (fun y => x.size == 0 || y.size == 0 || x.off + x.size ≤ y.off || y.off + y.size ≤ x.off) && sectionsApart xs

/-- The directory of an image of LENGTH bytes, with the checks of R65 on it. That an NSECT outside 1 to 32, a LENGTH that does
not reach the directory's end, or a section type that stands twice refuses the image is DEDUCED, log entry 61. -/
def parseDirectory (bs : List Byte) (len nsect : Nat) : Option (List Section) :=
  match parseAll parseSection (entries 16 nsect (bs.drop 0x80)) with
  | none => none
  | some xs =>
    let known := xs.all fun x => sectionTypes.contains x.ty
    let inside := xs.all fun x => x.off + x.size ≤ len
    let sums := xs.all fun x => crc32c ((bs.drop x.off).take x.size) == x.crc
    if nsect = 0 ∨ 32 < nsect ∨ len < 0x80 + 16 * nsect ∨ !known ∨ ¬ (xs.map (·.ty)).Nodup ∨ !inside ∨ !sums ∨
      !sectionsApart xs then none
    else some xs

/-- The bytes of a section; none where the image holds none of that type. -/
def sectionOf (bs : List Byte) (xs : List Section) (ty : Nat) : Option (List Byte) :=
  (xs.find? fun x => x.ty == ty).map fun x => (bs.drop x.off).take x.size

/-- An optional section: its parse, or a default where it is absent. -/
def optSection {α : Type} (dflt : α) (f : List Byte → Option α) : Option (List Byte) → Option α
  | none => some dflt
  | some b => f b

/-! ## The image -/

/-- An image with the bytes of a range taken as zero. -/
def zeroed (bs : List Byte) (lo hi : Nat) : List Byte := bs.take lo ++ List.replicate (hi - lo) 0 ++ bs.drop hi

/-- Whether a code section holds a PSWITCH (R63). -/
def holdsPswitch (code : List Byte) : Bool :=
  (entries 4 (code.length / 4) code).any fun w => slotClass (leNat w) == 6 && slotOp (leNat w) == 0x08

/-- Reserved fields of the header and of the signature, and fields outside their ranges (R61, R381). -/
def headerBad (bs : List Byte) : Bool :=
  let divs := getLE bs 0x30 8
  getLE bs 0x0C 4 / 32 != 0 || getLE bs 0x16 2 != 0 || getLE bs 0x25 3 != 0 || divs / 2 ^ 48 != 0 ||
    getLE bs 0x38 8 != 0 || (List.range 12).any (fun k => 8 ≤ bitsOf divs (4 * k) 4) || 7 < getLE bs 0x24 1 ||
    getLE bs 0x43 1 / 4 != 0 || getLE bs 0x44 12 != 0

/-- The parts of an image whose sections have been cut, or none where a check answers 0x0801. That a code section whose size is
no multiple of 4 refuses the image is DEDUCED, log entry 61. -/
def buildImage (bs : List Byte) (xs : List Section) : Option Image :=
  let flags := getLE bs 0x0C 4
  let entry := getLE bs 0x10 4
  let sec := sectionOf bs xs
  match sec 0x01, (sec 0x20).bind parseLoops, sec 0x30 with
  | some code, some loops, some replay =>
    let n := code.length
    let absent : VarAddrs := ⟨entry, 0xFFFF_FFFF, 0xFFFF_FFFF⟩
    let needs : Bool := bitOf flags 0 || bitOf flags 1 || holdsPswitch code
    if Config.codeSize < n ∨ n % 4 ≠ 0 ∨ !addrFits n true entry ∨ (needs && (sec 0x10).isNone) then none
    else
      match optSection [absent] (parseSwitches n flags entry) (sec 0x10),
          optSection (List.replicate 8 0) (parsePower flags) (sec 0x11), parseReplays n flags replay,
          optSection [] parsePatches (sec 0x40), optSection [] parseGuards (sec 0x41),
          optSection [] parsePages (sec 0x50), optSection (0, []) parseData (sec 0x60) with
      | some switches, some power, some replays, some patches, some guards, some pages, some data =>
        some
          { flags := flags, entry := entry, maxintv := getLE bs 0x18 8, mapclass := getLE bs 0x20 4,
            fidelity := getLE bs 0x24 1, tthash := word (getLE bs 0x28 8), divs := word (getLE bs 0x30 8), code := code,
            switches := switches, power := power, loops := loops, replays := replays, patches := patches,
            guards := guards, pages := pages, data := data }
      | _, _, _, _, _, _, _ => none
  | _, _, _ => none

/-- What the live-map class of an image must keep by the image alone (R325, R327), with the rows that its tile extent
needs. -/
def classBad (g : Image) : Bool :=
  g.mapclass / 2 ^ 24 != 0 || 80 < g.pin || noGrid g.rmask || (g.pin != 0 && g.pinOut) ||
    decide (16 - popCount 16 g.rmask < g.th)

/-- The digest that a signature must hold (R381). -/
def digestOf (bs : List Byte) (g : Image) : List Byte :=
  sha384 (zeroed bs 0x40 0x80 ++ leBytes 8 (g.shape16 + (g.mods - 1) % 2 ^ 16 * 2 ^ 16) ++
    leBytes 8 (g.fidelity % 8 + g.mapclass * 16))

/-- The checks of R65 and of the sections, in order, then those of the signature's GEN (R382): the image, or the code
that refuses it. The class and the digest are checked by `Image.refusal`. DEDUCED, log entry 61. -/
def parseImage (bs : List Byte) : Except Nat Image :=
  let len := getLE bs 0x08 4
  if getLE bs 0 4 ≠ 0x5754_564B then .error 0x0801
  else if getLE bs 6 1 ≠ 3 then .error 0x0901
  else if getLE bs 4 2 ≠ 3 ∨ getLE bs 7 1 ≠ 3 ∨ headerBad bs ∨ bitOf (getLE bs 0x0C 4) 4 then .error 0x0801
  else
    match parseDirectory bs len (getLE bs 0x14 2) with
    | none => .error 0x0801
    | some xs =>
      match buildImage bs xs with
      | none => .error 0x0801
      | some g =>
        let hash := word (leNat ((sha384 (zeroed (zeroed bs 0x28 0x30) 0x40 0x80)).take 8))
        if hash ≠ g.tthash ∨ classBad g then .error 0x0801
        else if bitOf g.flags 3 ∧ firstWaitw g.code g.entry = none then .error 0x0801
        else if getLE bs 0x40 1 ≠ 3 then .error 0x0901
        else .ok g

/-- RMASK of a site: the complement of LROW (R327). -/
def SiteMap.rmask (m : SiteMap) : Nat := (~~~m.lrow).toNat

/-- The sites of a rectangle of clusters. -/
def rectSites (x y cw ch : Nat) : List Nat :=
  (List.range ch).flatMap fun j => (List.range cw).map fun i => serp (x + i) (y + j)

/-- Whether no site has the image's class (R21, R295), or the pinned rectangle has another one (R325). -/
def Image.noSite (g : Image) (live : List SiteMap) : Bool :=
  let is (n : Nat) : Bool := ((live[n]?).map SiteMap.rmask) == some g.rmask
  if g.pin = 0 then !(List.range 80).any is
  else !((rectSites (siteX (g.pin - 1)) (siteY (g.pin - 1)) g.cw g.ch).all is)

/-- Whether a patch, a guard or the first WAITW names an argument word that the launch does not give (R295, R343). -/
def Image.argsShort (g : Image) (nargs : Nat) : Bool :=
  g.patches.any (fun p => nargs ≤ p.2) || g.guards.any (fun x => nargs ≤ x.1) ||
    (match firstWaitw g.code g.entry with
      | some j => decide (nargs ≤ j)
      | none => bitOf g.flags 3)

/-- A feature that the image or the launch uses and that was not accepted (R387). -/
def featureMissing (acc : BitVec 7) (g : Image) (group : Nat) (replay : Bool) : Bool :=
  (replay && !acc.getLsbD 1) || (decide (0 < g.fidelity) && !acc.getLsbD 2) || (group != 0 && !acc.getLsbD 3) ||
    (g.pages.any (·.wt) && !acc.getLsbD 5)

/-- The number of 64 KiB witness pieces of an image's WT pages (R379). -/
def Image.pieces (g : Image) : Nat := ((g.pages.filter (·.wt)).map fun p => p.size / 65536).sum

/-- The refusals of R295 on a parsed image, in the order of its table: class, digest, then the rest. -/
def Image.refusal (g : Image) (bs : List Byte) (m : Module) (live : List SiteMap) (nargs group : Nat)
    (replay : Bool) : Option Nat :=
  if g.noSite live then some 0x0902
  else if digestOf bs g ≠ (bs.drop 0x50).take 48 then some 0x0903
  else if 8 < nargs ∨ g.argsShort nargs ∨ featureMissing m.acc g group replay ∨ 65536 < g.pieces then some 0x0801
  else none

end Sys2Proof.Machine
end

