-- ==== Sys2Proof/Machine/Launch.lean ====
section
/-! DEFINITION. Launches and their records (R293 to R295, R298): acceptance, refusal, the completion
record, the release of a launch's clusters, and kill. -/

namespace Sys2Proof.Machine

/-! ## Bulk memory through the MMU of a queue's Lantern -/

/-- The Lantern that owns a queue (R289). -/
def queueLantern (q : Nat) : Fin 4 := if q < 16 then Fin.ofNat 4 (q / 4) else Fin.ofNat 4 (q - 16)

/-- Reads bytes at a VA; poisoned or uncorrectable bytes answer 0x0306 (R290). -/
def State.readBytes (s : State) (n : Fin 4) (va len : Nat) : State × Except Nat (List Byte) :=
  match s.readVa n va len with
  | (s1, .error c) => (s1, .error c)
  | (s1, .ok (bs, bad)) => (s1, if bad then .error 0x0306 else .ok bs)

/-! ## Launches -/

def State.launch? (s : State) (id : Nat) : Option Launch := s.launches.find? fun l => l.id == id

def State.modLaunch (s : State) (id : Nat) (f : Launch → Launch) : State :=
  { s with launches := s.launches.map fun l => if l.id = id then f l else l }

/-- The region that a launch holds. -/
def State.regionOfLaunch (s : State) (id : Nat) : Option Region := s.regions.find? fun r => r.launch == id

/-- What a LAUNCH entry or instruction asks for (R291, R300). -/
structure LaunchReq where
  queue : Nat
  evt : Nat
  w1 : Nat
  w2 : Nat
  replay : Bool
  serial : Bool
  byInsn : Bool
  deriving DecidableEq, Repr

/-- A launch descriptor and its CLASS byte (R293); none where a reserved field or a range is broken. -/
def parseDescriptor (bs : List Byte) : Option (Descriptor × Nat) :=
  let place := getLE bs 0x40 2
  let cls := getLE bs 0x11 1
  let d : Descriptor :=
    { imageVa := getLE bs 0 8, argsVa := getLE bs 8 8, nargs := getLE bs 0x10 1, evpre := getLE bs 0x12 2,
      group := getLE bs 0x14 4, saveVa := getLE bs 0x18 8, statusVa := getLE bs 0x20 8, ecap := getLE bs 0x28 8,
      efill := getLE bs 0x30 8, ecost := getLE bs 0x38 8, place := if bitOf place 8 then some (place % 256) else none }
  let bad : Bool := bitsOf cls 2 5 != 0 || d.evpre / 1024 != 0 || place / 512 != 0 || d.imageVa % 8 != 0 ||
    d.statusVa % 32 != 0 || (bs.drop 0x42).any (· != 0)
  if bad then none else some (d, cls)

/-- The 32 bytes of a completion record (R295). -/
def recordBytes (id code end_ tape scy energy : Nat) : List Byte :=
  leBytes 8 id ++ leBytes 2 code ++ leBytes 1 end_ ++ [0] ++ leBytes 2 tape ++ leBytes 2 0 ++ leBytes 8 scy ++
    leBytes 8 energy

/-- Writes a completion record at STATUS. DEDUCED, log entry 63. -/
def State.writeRecord (s : State) (queue va : Nat) (bs : List Byte) : State := s.writeVa (queueLantern queue) va bs

/-- The image bytes of a descriptor: the header, which gives LENGTH, and every byte up to LENGTH must translate (R65). That
MAGIC comes before the translation of the bytes past the header, and GEN after it, is DEDUCED, log entry 61. -/
def State.readImage (s : State) (n : Fin 4) (va : Nat) : State × Except Nat (List Byte) :=
  match s.readBytes n va 128 with
  | (s1, .error c) => (s1, .error c)
  | (s1, .ok h) => if getLE h 0 4 ≠ 0x5754_564B then (s1, .error 0x0801) else s1.readBytes n va (max 128 (getLE h 8 4))

/-- The argument words of a launch (R293). -/
def State.readArgs (s : State) (n : Fin 4) (d : Descriptor) : State × Except Nat (List Word) :=
  if d.nargs = 0 then (s, .ok [])
  else
    match s.readBytes n d.argsVa (8 * d.nargs) with
    | (s1, .error c) => (s1, .error c)
    | (s1, .ok bs) => (s1, .ok ((List.range d.nargs).map fun j => word (getLE bs (8 * j) 8)))

/-- The image and the argument words of a launch, or the code that refuses it (R65, R294, R295). -/
def State.checkLaunch (s : State) (n : Fin 4) (d : Descriptor) (replay : Bool) : State × Except Nat (Image × List Word) :=
  match s.readImage n d.imageVa with
  | (s1, .error c) => (s1, .error c)
  | (s1, .ok bs) =>
    match parseImage bs with
    | .error c => (s1, .error c)
    | .ok g =>
      match g.refusal bs s1.mod_ s1.live.toList d.nargs d.group replay with
      | some c => (s1, .error c)
      | none =>
        match s1.readArgs n d with
        | (s2, .error c) => (s2, .error c)
        | (s2, .ok ws) => (s2, .ok (g, ws))

/-- A launch as it enters the waiting set of its class (R294). -/
def newLaunch (id order : Nat) (r : LaunchReq) (d : Descriptor) (cls : Nat) (g : Image) (args : List Word) : Launch :=
  { id := id, queue := r.queue, replay := r.replay, serial := r.serial, byInsn := r.byInsn, evt := r.evt, tapeVa := r.w2,
    desc := d, img := g, args := args, state := .waiting, cls := cls, age := 0, order := order, preempted := false,
    kept := none, keptRegion := none, keptTiles := [], keptSpill := [], keptLamps := [], tapeCode := 0, placedAt := 0, chosen := false, ebal := 1000 * d.ecap, echg := 0,
    fault := 0, short := false, lease := none, tapeDone := false, evDue := false }

/-- Accepts a launch and gives it the next id, or refuses it; a refused launch whose descriptor could be read has its
record written with END 2 (R294, R295, R300). DEDUCED, log entry 62. -/
def State.acceptLaunch (s : State) (r : LaunchReq) : State × Except Nat Nat :=
  let n := queueLantern r.queue
  match s.readBytes n r.w1 128 with
  | (s1, .error c) => (s1, .error c)
  | (s1, .ok bs) =>
    let status := getLE bs 0x20 8
    let refuse (s : State) (c : Nat) : State × Except Nat Nat :=
      (s.writeRecord r.queue status (recordBytes 0 c 2 0 0 0), .error c)
    match parseDescriptor bs with
    | none => refuse s1 0x0801
    | some (d, cls) =>
      match s1.checkLaunch n d r.replay with
      | (s2, .error c) => refuse s2 c
      | (s2, .ok (g, args)) =>
        let m := s2.mod_
        let k := if bitOf cls 7 then (s2.queues.get (Fin.ofNat 20 r.queue)).cls else cls % 4
        let l := newLaunch m.nextLaunch m.nextOrder r d k g args
        ({ s2 with
            launches := s2.launches ++ [l],
            mod_ := { m with nextLaunch := (m.nextLaunch + 1) % 2 ^ 48, nextOrder := m.nextOrder + 1,
                             launched := true, decisions := m.decisions + 1 } }, .ok l.id)

/-! ## Release and end -/

/-- The place of a tile in the list once the tiles of a region are gone. -/
def newIndex (ts : List Tile) (region i : Nat) : Nat := ((ts.take i).filter fun t => t.region != region).length

/-- Takes the tiles of a region out of the list, and keeps what names the others by their new places. -/
def State.dropTiles (s : State) (region : Nat) : State :=
  let idx := newIndex s.tiles region
  let mine (i : Nat) : Bool := (s.tiles[i]?).any fun t => t.region == region
  let stall (x : Stall) : Stall := match x.by_ with
    | .window i w => { x with by_ := .window (idx i) w }
    | _ => x
  { s with
    tiles := s.tiles.filter fun t => t.region != region,
    syncs := (s.syncs.filter fun q => !mine q.tile).map fun q => { q with tile := idx q.tile },
    regions := s.regions.map fun r => { r with stalls := r.stalls.map stall } }

/-- The fault record that a site keeps once its region is gone: the last one of a launch that ends, none of one that
takes it along (R362). DEDUCED, log entry 41. -/
def Region.leftRecord (r : Region) (travels : Bool) : PlacedFault :=
  if travels then ⟨.zero, 0⟩ else ⟨r.fault, r.boundary.num⟩

/-- The clusters of a region become free (R22): its record fields go back to the launch, and a decision follows. -/
def State.freeRegion (s : State) (region : Nat) : State :=
  match s.region? region with
  | none => s
  | some r =>
    let s1 := (s.dropTiles region).modLaunch r.launch fun l => { l with ebal := r.ebal, echg := r.echg }
    { s1 with
      regions := s1.regions.filter fun x => x.id != region,
      faults := s1.faults.set (Fin.ofNat 80 region) (r.leftRecord ((s.launch? r.launch).any fun l => l.keptRegion.isSome)),
      mod_ := { s1.mod_ with decisions := s1.mod_.decisions + 1,
                             leases := s1.mod_.leases.filter fun x => x.1 != r.launch } }

/-- Ends a launch with its completion record (R295); END 0 and END 3 leave the completion event to be raised (R257). -/
def State.endLaunch (s : State) (id code end_ scy : Nat) : State :=
  match s.launch? id with
  | none => s
  | some l =>
    let echg := ((s.regionOfLaunch id).map (·.echg)).getD l.echg
    let s1 := s.writeRecord l.queue l.desc.statusVa (recordBytes id code end_ l.tapeCode scy (echg / 1000))
    let s2 := s1.modLaunch id fun l =>
      { l with state := .ended, evDue := end_ == 0 || end_ == 3, kept := none, keptRegion := none, keptTiles := [], keptSpill := [], keptLamps := [] }
    match s2.regionOfLaunch id with
    | some r => s2.freeRegion r.id
    | none => s2

/-- The schedule cycle that a record of a launch shows: that of its least-advanced cluster. -/
def Region.scy (r : Region) : Nat :=
  match r.clusters with
  | [] => 0
  | c :: cs => cs.foldl (fun m k => min m k.scy) c.scy

/-- The fault of a launch's first halt, 0 where it had none (R361). -/
def State.launchFault (s : State) (id : Nat) : Nat :=
  match s.regionOfLaunch id with
  | some r => r.launchFault
  | none => (((s.launch? id).bind (·.keptRegion)).map (·.launchFault)).getD 0

/-- KILL (R298): clusters, commands, shadows and leases go at once; END 1, CODE the launch's fault (R361), and no event.
DEDUCED, log entry 87. -/
def State.killLaunch (s : State) (id : Nat) : State :=
  s.endLaunch id (s.launchFault id) 1 (((s.regionOfLaunch id).map (·.scy)).getD 0)

/-- COMPLETION_EVENT (R257, R292): after the record, ADD 1 to the launch's completion event. -/
def State.raiseCompletion (s : State) (id : Nat) : State :=
  match s.launch? id with
  | none => s
  | some l => if l.evDue then (s.bump .completion l.evt).modLaunch id fun l => { l with evDue := false } else s

def execCompletionEvent (id : Nat) (s : State) : Host.Outcome State Fault Refusal := .next (s.raiseCompletion id)

end Sys2Proof.Machine
end

