-- ==== Sys2Proof/Machine/Sched.lean ====
section
/-! DEFINITION. The scheduler (R296, R297), placement (R21, R105, R325, R327, R328), leases and levels (R305, R354, R355),
loading a launch and starting its region (R24, R92, R192, R277, R343). -/

namespace Sys2Proof.Machine

/-! ## Grid (R326 to R328) -/

/-- One step of the Hilbert walk (R328). -/
def hilbertStep (s x y t : Nat) : Nat × Nat :=
  let rx := t / 2 % 2
  let ry := Nat.xor t rx % 2
  let (x, y) := if ry = 0 then (if rx = 1 then (s - 1 - y, s - 1 - x) else (y, x)) else (x, y)
  (x + s * rx, y + s * ry)

/-- hilbert_xy(d). -/
def hilbertXy (d : Nat) : Nat × Nat :=
  let a := hilbertStep 1 0 0 d
  let b := hilbertStep 2 a.1 a.2 (d / 4)
  let c := hilbertStep 4 b.1 b.2 (d / 16)
  hilbertStep 8 c.1 c.2 (d / 64)

def SiteMap.present (m : SiteMap) (y : Nat) : Bool := m.lrow.getLsbD y

/-- HIX of the cell at column tx and physical row y: the positions below it whose row is present. -/
def SiteMap.hix (m : SiteMap) (tx y : Nat) : Nat :=
  let d := ((List.range 256).findIdx? fun d => hilbertXy d == (tx, y)).getD 0
  ((List.range d).filter fun k => m.present (hilbertXy k).2).length

/-- LIVE of a site (R326). -/
def SiteMap.liveTiles (m : SiteMap) : Nat := 16 * popCount 16 m.lrow.toNat

/-- The global live tile number of a tile (R12). -/
def glt (live : List SiteMap) (site hix : Nat) : Nat := ((live.take site).map (·.liveTiles)).sum + hix

/-- The physical row of logical row ty. -/
def SiteMap.physRow (m : SiteMap) (ty : Nat) : Nat := ((List.range 16).filter m.present).getD ty 0

/-- The physical column of logical column tx in row y (R327). -/
def SiteMap.physCol (m : SiteMap) (y tx : Nat) : Nat :=
  let sub := m.sub.toList.getD y 31
  if sub ≤ tx then tx + 1 else tx

/-! ## Rectangles (R21, R325) -/

/-- A rectangle of clusters: its north-west site's coordinates. -/
structure Rect where
  x : Nat
  y : Nat
  cw : Nat
  ch : Nat
  deriving DecidableEq, Repr

def Rect.nw (r : Rect) : Nat := serp r.x r.y
def Rect.sites (r : Rect) : List Nat := rectSites r.x r.y r.cw r.ch

def Region.rect (r : Region) : Rect := ⟨r.nwx, r.nwy, r.cw, r.ch⟩

/-- The interior seams of a rectangle, each as a site and its east or south edge. -/
def Rect.seams (r : Rect) : List (Nat × Nat) :=
  (List.range r.ch).flatMap fun j => (List.range r.cw).flatMap fun i =>
    (if i + 1 < r.cw then [(serp (r.x + i) (r.y + j), 1)] else []) ++
      (if j + 1 < r.ch then [(serp (r.x + i) (r.y + j), 2)] else [])

/-- The site and edge on the far side of a seam. -/
def farSide (site e : Nat) : Nat × Nat :=
  if e = 1 then (serp (siteX site + 1) (siteY site), 3) else (serp (siteX site) (siteY site + 1), 0)

/-- Whether every gateway of every interior seam has BAND 0. -/
def State.seamsNormal (s : State) (r : Rect) : Bool :=
  r.seams.all fun x => (List.range 4).all fun g =>
    (s.band x.1 x.2 g).band == 0 && (s.band (farSide x.1 x.2).1 (farSide x.1 x.2).2 g).band == 0

/-- Whether every site of a rectangle has the class of the image (R21). -/
def State.classFits (s : State) (g : Image) (r : Rect) : Bool :=
  r.sites.all fun n => (s.live.toList.getD n .full).rmask == g.rmask && 0 < (s.live.toList.getD n .full).liveTiles

/-- The rectangles that admit an image, by ascending serpentine index of the north-west site, PLACE first. -/
def State.rects (s : State) (g : Image) (place : Option Nat) : List Rect :=
  let at_ (n : Nat) : Rect := ⟨siteX n, siteY n, g.cw, g.ch⟩
  let all := if g.pin = 0 then (List.range 80).map at_ else [at_ (g.pin - 1)]
  let fits := all.filter fun r =>
    decide (r.x + g.cw ≤ 10) && decide (r.y + g.ch ≤ 8) && s.classFits g r && (g.pin != 0 || s.seamsNormal r)
  match place with
  | none => fits
  | some p => (fits.filter fun r => r.nw == p) ++ fits.filter fun r => r.nw != p

/-- The regions that hold a site of a rectangle. -/
def State.holders (s : State) (r : Rect) : List Region :=
  s.regions.filter fun x => x.rect.sites.any fun n => r.sites.contains n

/-- The free rectangle that a launch would be placed on (R296). -/
def State.freeRect (s : State) (l : Launch) : Option Rect :=
  (s.rects l.img l.desc.place).find? fun r => (s.holders r).isEmpty

/-! ## Levels and leases (R305, R354, R355, R358) -/

/-- The SCY of a region's most-advanced cluster. -/
def Region.scyMax (r : Region) : Nat := r.clusters.foldl (fun m k => max m k.scy) 0

/-- Sends a change of level down the stall tree: it takes effect at M + 96 in each cluster (R355). -/
def State.sendLevel (s : State) (region level : Nat) : State :=
  s.modRegion region fun r =>
    let at_ := r.scyMax + Config.treeLatency
    { r with clusters := r.clusters.map fun k => { k with grants := k.grants ++ [(at_, level)] } }

/-- Whether the pool grants a launch a level above SUS (R354, R395). -/
def State.poolGrants (s : State) (region level : Nat) : Bool :=
  let s1 := s.modRegion region fun r => { r with leaseLevel := some level }
  level ≤ s.mod_.ceil && s1.leaseDraw ≤ 80 * powerKw s.mod_.ceil

/-- Gives a region a lease for some wall cycles (R305). -/
def State.grantLease (s : State) (region launch level left : Nat) : State :=
  let exp := s.wcy + left
  let s1 := s.modRegion region fun r => { r with leaseLevel := some level, expiry := some exp }
  { s1 with mod_ := { s1.mod_ with leases := (launch, level, exp) :: s1.mod_.leases.filter fun x => x.1 != launch } }

/-- Whether a region is being saved, which R304 sets apart from running. -/
def Region.saving (r : Region) : Bool :=
  match r.phase with
  | .saving _ _ => true
  | _ => false

/-- LEASE (R305): the value returned; a level at or below SUS needs no lease and has no expiry. DEDUCED, log entry 65. -/
def State.requestLease (s : State) (id : Nat) (b : Word) : State × Word :=
  let level := bitsOf b.toNat 0 3
  let dur := bitsOf b.toNat 32 32
  match s.launch? id, s.regionOfLaunch id with
  | some l, some r =>
    if !s.mod_.acc.getLsbD 4 ∨ l.state ≠ .running ∨ r.saving ∨ bitsOf b.toNat 3 29 ≠ 0 ∨ dur = 0 then (s, 0)
    else if level ≤ s.mod_.sus then
      let s1 := s.modRegion r.id fun r => { r with leaseLevel := none, expiry := none }
      let s2 := { s1 with mod_ := { s1.mod_ with leases := s1.mod_.leases.filter fun x => x.1 != id } }
      (s2.sendLevel r.id level, BitVec.allOnes 64)
    else if s.poolGrants r.id level then
      let left := 2500 * dur
      ((s.grantLease r.id id level left).sendLevel r.id level, word (s.wcy + left))
    else (s, 0)
  | _, _ => (s, 0)

/-- LEASE_EXPIRY (R355, R358): at EXPIRY the region's level drops to SUS. -/
def State.expireLease (s : State) (id : Nat) : State :=
  match s.regionOfLaunch id with
  | none => s
  | some r =>
    match r.expiry with
    | none => s
    | some w =>
      if s.wcy < w then s
      else
        let s1 := s.modRegion r.id fun r => { r with leaseLevel := none, expiry := none }
        { s1 with mod_ := { s1.mod_ with leases := s1.mod_.leases.filter fun x => x.1 != id } }.sendLevel r.id s.mod_.sus

def execLeaseExpiry (id : Nat) (s : State) : Host.Outcome State Fault Refusal := .next (s.expireLease id)

/-! ## Tiles as at launch (R92, R105, R137, R158, R192) -/

/-- LIDn of a tile (R20): its coordinate on the level's axis, over the extents of the deeper levels of the same kind and
axis. -/
def lidOf (loops : List LoopEntry) (tx ty ox oy mi n : Nat) : Nat :=
  match loops[n]? with
  | none => 0
  | some l =>
    let p := extentOf (loops.drop (n + 1)) l.kind l.axis
    let c := match l.kind, l.axis with
      | 1, 1 => tx
      | 1, _ => ty
      | 2, 1 => ox
      | 2, _ => oy
      | 3, _ => mi
      | _, _ => 0
    if l.kind = 0 then 0 else c / p % l.ext

/-- A tile with every register at its launch value. -/
def blankTile (region cluster site tx ty prow hix glt posn variant : Nat) (lid : Vector Nat 8) : Tile :=
  { region := region, cluster := cluster, site := site, tx := tx, ty := ty, prow := prow, hix := hix, glt := glt,
    posn := posn, lid := lid, core := .reset, run := .armed, code := .empty, sp := .empty, tape := .empty, fflags := 0,
    frm := 0, cause := .none, halt := .none, bank1 := ⟨.on, none⟩, bank2 := ⟨.on, none⟩, bankclr := false,
    variant := variant, gens := Vector.replicate 16 .reset, agPrev := none, handles := Vector.replicate 32 ⟨0, false⟩,
    scales := Vector.replicate 4 ⟨0, 0⟩, ym := Vector.replicate 4 (BitVec.allOnes 32), xm := Vector.replicate 4 (BitVec.allOnes 32),
    vm := Vector.replicate 8 (BitVec.allOnes 64), acc := Vector.replicate 2 .reset,
    slerr := Vector.replicate 4 0, spceCount := 0, spceLast := 0, csceCount := 0, csceLast := 0, csceTape := false, spceNow := false, csceNow := false,
    mctx := [], mtasks := [], mbusy := Vector.replicate 3 0, pendFid := none, vbusy := Vector.replicate 2 none,
    accs := [], claims := [], wbuf := [], wins := Vector.replicate 16 .reset, cmds := [], shadow := [], catoms := [],
    routes := Vector.replicate 16 0, act := Vector.replicate 16 0, stag := 0, etag := 0, arrivals := [], rq := [],
    rec_ := .reset, rep := .reset, nsw := 0, stay := false, lastLvl := 0, residues := [], deferred := .none }

/-- A memory with bytes from an address on and nothing else: sorted, and without zeros. -/
def cellsFrom : (a : Nat) → List Byte → List Host.Cell
  | _, [] => []
  | a, b :: bs => if b = Mem.unlisted then cellsFrom (a + 1) bs else (a, b) :: cellsFrom (a + 1) bs

/-- The scratchpad and code store of a launch: initial image, argument block, code (R108, R192). -/
def Tile.withMemory (t : Tile) (l : Launch) : Tile :=
  let args := (List.range 8).flatMap fun j => leBytes 8 (l.args.getD j 0).toNat
  { t with code := ⟨cellsFrom 0 l.img.code, []⟩,
           sp := (⟨cellsFrom l.img.data.1 l.img.data.2, []⟩ : Mem).setBytes Config.argBase args }

/-- The tiles of a region for a launch, cluster by cluster and row by row, which is ascending POSN (R268). -/
def State.tilesFor (s : State) (l : Launch) (r : Rect) (variant : Nat) : List Tile :=
  let g := l.img
  let live := s.live.toList
  (List.range g.ch).flatMap fun oy => (List.range g.cw).flatMap fun ox =>
    (List.range g.th).flatMap fun ty => (List.range g.tw).map fun tx =>
      let site := serp (r.x + ox) (r.y + oy)
      let m := live.getD site .full
      let y := m.physRow ty
      let hix := m.hix tx y
      let lid : Vector Nat 8 := Vector.ofFn fun n => lidOf g.loops tx ty ox oy s.mod_.gidx n.val
      (blankTile r.nw (oy * g.cw + ox) site tx ty y hix (glt live site hix) (((oy * g.cw + ox) * g.th + ty) * g.tw + tx)
        variant lid).withMemory l

/-- The tiles of a region, in POSN order, which is their order in the list. -/
def State.tilesOf (s : State) (region : Nat) : List Tile := s.tiles.filter fun t => t.region == region

/-! ## Placement (R21, R24, R296) -/

/-- The level that a cluster applies for a requested fidelity level (R165). -/
def State.fidAt (s : State) (site level : Nat) : Nat :=
  if ((s.fids.toList[site * 8 + level]?).map (·.sup)).getD false then level else 0

/-- A cluster of a newly placed region. -/
def State.newCluster (s : State) (l : Launch) (r : Rect) (level ox oy : Nat) : Cluster :=
  let site := serp (r.x + ox) (r.y + oy)
  let v := l.img.variantOf level
  { Cluster.none with site := site, ox := ox, oy := oy, clk := { Clock.reset with div := l.img.divsOf v },
                      fid := s.fidAt site l.img.fidelity, grant := level, variant := v }

/-- A newly placed region (R338, R362). -/
def State.newRegion (s : State) (l : Launch) (r : Rect) (level : Nat) : Region :=
  let g := l.img
  { launch := l.id, nwx := r.x, nwy := r.y, cw := g.cw, ch := g.ch, tw := g.tw, th := g.th, mods := g.mods,
    modIx := s.mod_.gidx, phase := .loading (s.wcy + s.timing.load),
    clusters := (List.range g.ch).flatMap fun oy => (List.range g.cw).map fun ox => s.newCluster l r level ox oy,
    stalls := [], haltReq := none, frozen := 0, nfrz := 0, wreq := 0, preq := 0, ebal := l.ebal, echg := l.echg,
    expiry := none, leaseLevel := none, wasFrozen := false, bphase := 0, publishes := [], poison := false, suppressed := false,
    boundary := ⟨0, 0, 0, g.variantOf level, List.replicate (g.cw * g.ch * g.tw * g.th) (Vector.replicate 4 0)⟩,
    stopW := 0, endAt := none,
    fault := .zero, launchFault := 0, retrying := false, softReq := none, hardReq := false, parkAfter := false }

/-- The region record and the boundary that travel with a launch that was placed before (R338, R362, R365); a frozen
lease resumes where the pool admits it (R297). -/
def Region.carry (r : Region) (old : Option Region) (hard : Bool) : Region :=
  match old with
  | none => r
  | some o =>
    let x := { r with boundary := o.boundary, fault := o.fault, launchFault := o.launchFault, bphase := o.boundary.phase }
    if hard then { x with bphase := o.bphase, poison := o.poison, endAt := o.endAt } else x

/-- Charges ECOST and places a launch on a rectangle (R296, R357). -/
def State.placeAt (s : State) (l : Launch) (rect : Rect) : State :=
  let cost := 1000 * l.desc.ecost
  let l1 := { l with state := .running, chosen := true, ebal := l.ebal - cost, echg := l.echg + cost, age := 0, placedAt := s.mod_.placements,
                     lease := none }
  let hard : Bool := l.kept == some .hard
  let s1 := { s with mod_ := { s.mod_ with placements := s.mod_.placements + 1 } }.modLaunch l.id fun _ => l1
  let base := (s1.newRegion l1 rect s1.mod_.sus).carry l.keptRegion hard
  let s2 := { s1 with regions := s1.regions ++ [base] }
  let lease := l.lease.filter fun x => s1.mod_.sus < x.1 && s2.poolGrants rect.nw x.1
  let level := (lease.map (·.1)).getD s1.mod_.sus
  let r := (s1.newRegion l1 rect level).carry l.keptRegion hard
  let s3 := { s1 with regions := s1.regions ++ [r], tiles := s1.tiles ++ s1.tilesFor l1 rect (l.img.variantOf level) }
  let s4 := match lease with
    | some (lv, left) => s3.grantLease rect.nw l.id lv left
    | none => s3
  { s4 with lamps := rect.sites.foldl (fun v n => v.set (Fin.ofNat 80 n) .zero) s4.lamps }

/-- Whether a launch of a group would hold a port that is down or of class 3 (R324, R391). -/
def State.portsBad (s : State) (l : Launch) (rect : Rect) : Bool :=
  l.desc.group != 0 && (List.range 32).any fun p =>
    let site := portSite p
    let held := rect.sites.contains site && (s.tilesFor l rect 0).any fun t =>
      t.site == site && homePort t.site t.tx t.ty (s.rowsOf t.site) == some p
    let q := s.ports.get (Fin.ofNat 32 p)
    held && (!q.up || q.cls == 3)

/-- A refusal at placement (R295): END 2, no event; a SERIAL entry blocked on it puts its queue into ERROR. -/
def State.refusePlaced (s : State) (l : Launch) (code : Nat) : State :=
  let s1 := s.endLaunch l.id code 2 0
  (List.range 20).foldl (fun s q =>
    let x := s.queues.get (Fin.ofNat 20 q)
    if x.block = some (.serialLaunch l.id) then s.queueStop (Fin.ofNat 20 q) .error code else s) s1

/-! ## Decisions (R296) -/

/-- The order in which a queue's launches stand: pre-empted ones ahead of those never placed, then by entry. -/
def Launch.before (x y : Launch) : Bool :=
  if x.preempted == y.preempted then x.order < y.order else x.preempted

/-- The oldest of a list of launches. -/
def oldest : List Launch → Option Launch
  | [] => none
  | l :: ls =>
    match oldest ls with
    | none => some l
    | some m => if m.before l then some m else some l

/-- The launches of a class that could be placed now. -/
def State.fitting (s : State) (cls : Nat) : List Launch :=
  s.launches.filter fun l => l.state == .waiting && l.cls == cls && !l.short && (s.freeRect l).isSome

/-- The launch of a class that round robin over the queues picks, starting after the queue last served (R296), among those
that were pre-empted if there are any: they stand ahead of launches never placed (R297). -/
def roundRobin (last : Nat) (all : List Launch) : Option Launch :=
  let out := all.filter (·.preempted)
  let ls := if out.isEmpty then all else out
  ((List.range 20).map fun k => (last + 1 + k) % 20).findSome? fun q => oldest (ls.filter fun l => l.queue == q)

/-- A decision passes a waiting launch over: at a count of 64 it moves up one class (R296). -/
def Launch.passed (l : Launch) : Launch :=
  if l.state ≠ .waiting then l
  else if 63 ≤ l.age then { l with age := 0, cls := l.cls - 1 }
  else { l with age := l.age + 1 }

def State.again (s : State) : State := { s with mod_ := { s.mod_ with decisions := s.mod_.decisions + 1 } }

/-- Moves a launch one class down after a check of its bucket failed (R296, R357). -/
def State.demote (s : State) (id : Nat) : State :=
  (s.modLaunch id fun l => { l with cls := min 4 (l.cls + 1) }).again

/-- The checks of the chosen launch, that of its ports at its first choice only (R295), then its placement. DESIGN CHOICE, log entry 24. DEDUCED, log entry 64. -/
def State.choose (s : State) (l : Launch) (rect : Rect) : State :=
  let s := { s with mod_ := { s.mod_ with served := s.mod_.served.set (Fin.ofNat 5 l.cls) l.queue } }
  if !l.chosen && s.portsBad l rect then (s.refusePlaced l 0x0801).again
  else if l.ebal < 1000 * l.desc.ecost then
    (s.demote l.id).modLaunch l.id fun l => { l with short := true, chosen := true }
  else
    let s1 := { s with launches := s.launches.map fun (x : Launch) => if x.id = l.id then x else x.passed }
    (s1.placeAt l rect).again

/-! ## Soft pre-emption (R297) -/

/-- Requests soft pre-emption of a running launch; `park` keeps it out of the waiting sets (R304). -/
def State.requestSoft (s : State) (id : Nat) (park : Bool) : State :=
  match s.regionOfLaunch id with
  | none => s
  | some r =>
    s.modRegion r.id fun r =>
      { r with softReq := some (r.softReq.getD s.wcy), parkAfter := park || (r.softReq.isSome && r.parkAfter) }

/-- Whether the launches of some regions may be pre-empted for a launch of a class: all running and of a lower class. -/
def State.mayVacate (s : State) (cls : Nat) (rs : List Region) : Bool :=
  !rs.isEmpty && rs.all fun r => match s.launch? r.launch with
    | some l => l.state == .running && decide (cls < l.cls)
    | none => false

/-- The latest placement among some regions. -/
def State.latest (s : State) (rs : List Region) : Nat :=
  rs.foldl (fun m r => max m (((s.launch? r.launch).map (·.placedAt)).getD 0)) 0

/-- The better of two sets of victims: the fewer, among equals those placed latest. -/
def State.betterSet (s : State) (best : Option (List Region)) (rs : List Region) : Option (List Region) :=
  match best with
  | none => some rs
  | some b => if rs.length < b.length ∨ (rs.length = b.length ∧ s.latest b < s.latest rs) then some rs else some b

/-- The launches whose removal would free a rectangle for a waiting one. -/
def State.victims (s : State) (l : Launch) : Option (List Region) :=
  ((s.rects l.img l.desc.place).map s.holders).foldl (fun best rs =>
    if s.mayVacate l.cls rs then s.betterSet best rs else best) none

/-- The waiting launches in the order that pre-emption serves them. -/
def State.waitingInOrder (s : State) : List Launch :=
  (List.range 5).flatMap fun c =>
    let ls := s.launches.filter fun l => l.state == .waiting && l.cls == c && !l.short && (s.freeRect l).isNone
    (ls.filter (·.preempted)) ++ ls.filter fun l => !l.preempted

/-- Requests soft pre-emption of the launches of some regions, each once. -/
def State.requestAll (s : State) (rs : List Region) : State :=
  rs.foldl (fun s r => if r.softReq.isSome then s else s.requestSoft r.launch false) s

/-- Requests the pre-emptions that the waiting launches with no rectangle ask for, each its own. -/
def State.preemptFor (s : State) : State :=
  (s.waitingInOrder.filterMap s.victims).foldl State.requestAll s

/-- SCHEDULER_DECISION (R296). -/
def State.decide (s0 : State) : State :=
  if s0.mod_.decisions = 0 then s0
  else
    let s := { s0 with mod_ := { s0.mod_ with decisions := s0.mod_.decisions - 1 } }
    match (List.range 5).findSome? fun c => roundRobin (s.mod_.served.toList.getD c 0) (s.fitting c) with
    | none => s.preemptFor
    | some l =>
      match s.freeRect l with
      | some rect => s.choose l rect
      | none => s

def execSchedulerDecision (s : State) : Host.Outcome State Fault Refusal := .next s.decide

end Sys2Proof.Machine
end

