-- ==== Sys2Proof/Machine/SnapCode.lean ====
section
/-! DEFINITION. The byte codes of the parts of a snapshot whose contents R374 names without a layout: each code is a way to
write a piece of state as bytes and a way to read it back. DESIGN CHOICE, log entry 102. -/

namespace Sys2Proof.Machine

/-- A reader of bytes: what it reads, and the bytes that are left. -/
abbrev Get := StateM (List Byte)

/-- The bytes of a value, and how it is read from the front of a list of bytes; where the bytes end, zeros are read. -/
structure Code (α : Type) where
  put : α → List Byte
  get : Get α

/-! ## Plain values -/

/-- A number in n bytes. -/
def codeNat (n : Nat) : Code Nat := ⟨leBytes n, fun bs => (leNat (bs.take n), bs.drop n)⟩

/-- A code for β from one for α. -/
def Code.to {α β : Type} (c : Code α) (f : α → β) (g : β → α) : Code β := ⟨fun x => c.put (g x), do return f (← c.get)⟩

def Code.pair {α β : Type} (a : Code α) (b : Code β) : Code (α × β) :=
  ⟨fun x => a.put x.1 ++ b.put x.2, do return (← a.get, ← b.get)⟩

def codeN : Code Nat := codeNat 8
def codeByte : Code Nat := codeNat 1
def codeBool : Code Bool := codeByte.to (· == 1) (boolNat · 1)
def codeInt (n : Nat) : Code Int := (codeNat n).to (toSigned (8 * n)) (toRaw (8 * n))
def codeBits (w : Nat) : Code (BitVec w) := (codeNat ((w + 7) / 8)).to (BitVec.ofNat w) (·.toNat)
def codeFin (n : Nat) : Code (Fin (n + 1)) := (codeNat 2).to (Fin.ofNat (n + 1)) (·.val)

def codeOpt {α : Type} (c : Code α) : Code (Option α) :=
  ⟨fun x => match x with
    | none => [0]
    | some v => 1 :: c.put v,
   do if (← codeBool.get) then return some (← c.get) else return none⟩

/-- Reads n values. -/
def getMany {α : Type} (g : Get α) : (n : Nat) → Get (List α)
  | 0 => return []
  | n + 1 => do
    let x ← g
    return x :: (← getMany g n)

/-- A list: how many, then its values, of which there are no more than bytes. -/
def codeList {α : Type} (c : Code α) : Code (List α) :=
  ⟨fun xs => leBytes 4 xs.length ++ xs.flatMap c.put, do
    let n ← (codeNat 4).get
    fun bs => getMany c.get (min n bs.length) bs⟩

/-- A vector of n values; d stands for one that is not there. -/
def codeVec {α : Type} (c : Code α) (d : α) (n : Nat) : Code (Vector α n) :=
  ⟨fun v => v.toList.flatMap c.put, do
    let xs ← getMany c.get n
    return Vector.ofFn fun i => xs.getD i.val d⟩

/-- Truth values, eight in a byte. -/
def packBits (bs : List Bool) : List Byte := (entries 8 ((bs.length + 7) / 8) (bs.map fun b => BitVec.ofNat 8 (boolNat b 1))).map
  fun g => BitVec.ofNat 8 (g.foldr (fun b acc => b.toNat + 2 * acc) 0)

/-- n of them. -/
def codeFlags (n : Nat) : Code (List Bool) :=
  ⟨packBits, do
    let v ← (codeNat ((n + 7) / 8)).get
    return (List.range n).map (bitOf v)⟩

/-- The lengths of the runs of equal truth values, the first run being of b, of which k have come. -/
def boolRuns : (b : Bool) → (k : Nat) → List Bool → List Nat
  | _, k, [] => [k]
  | b, k, x :: xs => if x == b then boolRuns b (k + 1) xs else k :: boolRuns x 1 xs

def runBools : (b : Bool) → List Nat → List Bool
  | _, [] => []
  | b, k :: ks => List.replicate k b ++ runBools (!b) ks

/-- Truth values by the lengths of their runs. -/
def codeRuns : Code (List Bool) := (codeList (codeNat 2)).to (runBools true) (boolRuns true 0)

/-! ## Registers and words -/

def codeSReg : Code SReg :=
  ((codeBits 64).pair (codeBool.pair codeBool)).to (fun (v, t, p) => ⟨v, t, p⟩) fun x => (x.val, x.taint, x.poison)

def codeSOp : Code SOp := codeByte.to (fun n => (SOp.ofCode n).getD .l) SOp.code

def codeDue : Code Due :=
  (codeByte.pair codeN).to
    (fun (d, n) => ⟨match d with
      | 1 => .ctl
      | 2 => .mat
      | 3 => .vec
      | 4 => .cpy
      | _ => .ref, n⟩)
    fun x => (match x.dom with
      | .ref => 0
      | .ctl => 1
      | .mat => 2
      | .vec => 3
      | .cpy => 4, x.at_)

/-- A slot instruction as its word (R33). -/
def codeInstr : Code Instr :=
  (codeNat 4).to (fun w => match decodeSlot w with
    | .ok i => i
    | .error _ => .mnop 0) fun i => ((encode false i).getD 0).toNat

def codeRMode : Code RMode :=
  codeByte.to RMode.ofCode fun m => ((List.range 4).find? fun n => RMode.ofCode n == m).getD 0

def codeAtom : Code AtomOp :=
  codeByte.to (fun n => (atomOfCode n).getD .cas) fun o => ((List.range 7).find? fun k => atomOfCode k == some o).getD 7

def codeMesh : Code MeshWord :=
  ((codeBits 128).pair ((codeBits 8).pair (codeBool.pair codeBool))).to (fun (d, t, p, h) => ⟨d, t, p, h⟩)
    fun w => (w.data, w.tag, w.poison, w.header)

/-- The input lane of an entry. -/
def Lane.snapCode : Lane → Nat
  | .n => 0
  | .e => 1
  | .s => 2
  | .w => 3
  | .snd => 4

def laneOfCode : Nat → Lane
  | 0 => .n
  | 1 => .e
  | 2 => .s
  | 3 => .w
  | _ => .snd

/-- The bytes that a mask says are there. -/
def fillMask : (mask : List Bool) → List Byte → List (Option Byte)
  | [], _ => []
  | false :: ms, bs => none :: fillMask ms bs
  | true :: ms, bs => some (bs.headD 0) :: fillMask ms bs.tail

/-- A line: which of its bytes are written, their poison, and those bytes. -/
def codeLine : Code LineWrite :=
  ⟨fun w => leBytes 4 w.addr ++ codeRuns.put (w.bytes.map (·.isSome)) ++ codeRuns.put w.poison ++ w.bytes.filterMap id,
   do
    let a ← (codeNat 4).get
    let m ← codeRuns.get
    let p ← codeRuns.get
    fun bs => (⟨a, fillMask m bs, p⟩, bs.drop (m.filter id).length)⟩

/-! ## Results (R375) -/

/-- A result in the terms of R375: DEST, the marks, the value and the poison marks of its groups. Kinds 10 to 15, the
indices of kind 3 from 16 and of kind 4 from 32 on, are the model's own. DESIGN CHOICE, log entry 102. -/
structure Saved where
  dest : Nat
  marks : Nat
  value : List Byte
  groups : Nat
  deriving DecidableEq, Repr

/-- A result without marks. -/
def saveAt (dest : Nat) (value : List Byte) : Saved := ⟨dest, 0, value, 0⟩

def Effect.saved : Effect → Saved
  | .reg d v => ⟨d.code, boolNat v.taint 1 + boolNat v.poison 2, leBytes 8 v.val.toNat, 0⟩
  | .pair k v => ⟨0x1000 + k.val, boolNat v.taint 1 + boolNat v.poison 2, leBytes 8 (boolNat v.val 1), 0⟩
  | .breg n v => saveAt (0x2000 + n.val) (leBytes 4 v.toNat)
  | .agPos n ii oi => saveAt (0x3000 + n.val) (leBytes 8 (oi.toNat * 4096 + ii.toNat))
  | .agSet n p c => saveAt (0x3010 + n.val) (leBytes 8 p.toNat ++ leBytes 8 c.toNat)
  | .agStr n x => saveAt (0x3020 + n.val) (leBytes 8 x.toNat)
  | .agBase n v => saveAt (0x3030 + n.val) (leBytes 8 v.toNat)
  | .agBw n v => saveAt (0x3040 + n.val) (leBytes 8 v.toNat)
  | .handle n v p => ⟨0x4000 + n.val, 0, leBytes 32 v.toNat, boolNat p 15⟩
  | .field n f v => saveAt (0x4000 + 32 * (f.val + 1) + n.val) (leBytes 8 v.toNat)
  | .scale n v p => ⟨0x5000 + n.val, 0, leBytes 256 v.toNat, p.toNat⟩
  | .vmask n v => saveAt (0x6000 + n.val) (leBytes 8 v.toNat)
  | .ym n v => saveAt (0x7000 + n.val) (leBytes 4 v.toNat)
  | .xm n v => saveAt (0x8000 + n.val) (leBytes 4 v.toNat)
  | .special i v => saveAt (0x9000 + i.toNat) (leBytes 8 v.toNat)
  | .route e v => saveAt (0xA000 + e.val) (leBytes 8 v.toNat)
  | .act e v => saveAt (0xB000 + e.val) (leBytes 8 v)
  | .tags st et => saveAt 0xC000 ((codeOpt (codeBits 8)).put st ++ (codeOpt (codeBits 8)).put et)
  | .recBit v => saveAt 0xD000 (leBytes 1 (boolNat v 1))
  | .replayBit v => saveAt 0xD001 (leBytes 1 (boolNat v 1))
  | .bank b st => saveAt (0xE000 + boolNat (b == .bank2) 1) (leBytes 1 (match st with
      | .on => 0
      | .ret => 1
      | .off => 2))
  | .flags f => saveAt 0xF000 (leBytes 1 f.toNat)

/-- The effect of a saved result. -/
def Saved.effect (x : Saved) : Effect :=
  let i := x.dest % 4096
  let v := leNat x.value
  let w : Word := word (getLE x.value 0 8)
  let taint := bitOf x.marks 0
  let poison := bitOf x.marks 1
  match x.dest / 4096 with
  | 0 => .reg ((SOp.ofCode i).getD .l) ⟨w, taint, poison⟩
  | 1 => .pair (Fin.ofNat 8 i) ⟨bitOf v 0, taint, poison⟩
  | 2 => .breg (Fin.ofNat 4 i) (BitVec.ofNat 32 v)
  | 3 =>
    let n := Fin.ofNat 16 i
    match i / 16 with
    | 0 => .agPos n (BitVec.ofNat 12 w.toNat) (BitVec.ofNat 12 (w.toNat / 4096))
    | 1 => .agSet n w (word (getLE x.value 8 8))
    | 2 => .agStr n w
    | 3 => .agBase n (BitVec.ofNat 22 w.toNat)
    | _ => .agBw n (BitVec.ofNat 2 w.toNat)
  | 4 => if i < 32 then .handle (Fin.ofNat 32 i) (BitVec.ofNat 256 (getLE x.value 0 32)) (x.groups != 0)
         else .field (Fin.ofNat 32 i) (Fin.ofNat 19 (i / 32 - 1)) w
  | 5 => .scale (Fin.ofNat 4 i) (BitVec.ofNat 2048 v) (BitVec.ofNat 32 x.groups)
  | 6 => .vmask (Fin.ofNat 8 i) w
  | 7 => .ym (Fin.ofNat 4 i) (BitVec.ofNat 32 v)
  | 8 => .xm (Fin.ofNat 4 i) (BitVec.ofNat 32 v)
  | 9 => .special (BitVec.ofNat 12 i) w
  | 10 => .route (Fin.ofNat 16 i) w
  | 11 => .act (Fin.ofNat 16 i) w.toNat
  | 12 =>
    let ((st, et), _) := (((codeOpt (codeBits 8)).pair (codeOpt (codeBits 8))).get).run x.value
    .tags st et
  | 13 => if i = 0 then .recBit (bitOf v 0) else .replayBit (bitOf v 0)
  | 14 => .bank (if i = 0 then .bank1 else .bank2) (match v % 256 with
      | 0 => .on
      | 1 => .ret
      | _ => .off)
  | _ => .flags (BitVec.ofNat 6 v)

def codeEffect : Code Effect :=
  ((codeNat 2).pair (codeByte.pair ((codeList (codeBits 8)).pair (codeNat 4)))).to
    (fun (d, m, v, g) => (⟨d, m, v, g⟩ : Saved).effect) fun e => (e.saved.dest, e.saved.marks, e.saved.value, e.saved.groups)

/-! ## The access port and the vector units -/

def codeVCtx : Code VCtx :=
  (codeInstr.pair <| (codeInt 8).pair <| (codeInt 8).pair <| (codeInt 8).pair <| (codeBits 64).pair <| codeRMode.pair <|
      codeSReg.pair codeSReg).to
    (fun (i, a, b, d, m, f, x, y) => ⟨i, a, b, d, m, f, x, y⟩)
    fun v => (v.op, v.addrA, v.addrB, v.addrD, v.mask, v.frm, v.o1, v.o2)

/-- What an access does, by a number for its kind. -/
def codeAccOp : Code AccOp :=
  let load := codeByte.pair <| codeBool.pair <| codeN.pair codeSOp
  let store := codeByte.pair <| codeN.pair <| (codeBits 64).pair codeBool
  let atom := codeAtom.pair <| codeN.pair <| codeSReg.pair <| codeSReg.pair codeSOp
  let hst := codeN.pair <| (codeBits 256).pair codeBool
  let write := (codeList codeLine).pair (codeList codeEffect)
  let got := codeN.pair ((codeBits 8).pair codeBool)
  let window := codeVCtx.pair <| (codeList codeN).pair <| (codeList (codeBits 8)).pair <| codeByte.pair <|
    (codeList got).pair (codeList codeBool)
  let list := codeInstr.pair <| (codeBits 256).pair <| (codeBits 256).pair <| codeSReg.pair <| codeSReg.pair codeN
  let engine := codeInstr.pair <| (codeList (codeBits 64)).pair <| codeN.pair codeN
  let send := codeN.pair <| codeByte.pair (codeBits 8)
  let recv := codeN.pair <| codeByte.pair <| codeBool.pair codeBool
  let header := (codeBits 128).pair ((codeBits 8).pair codeBool)
  let serve := codeByte.pair codeMesh
  let port := (codeFin 31).pair <| codeN.pair <| codeN.pair codeMesh
  ⟨fun op => match op with
    | .load n sg a d => 0 :: load.put (n, sg, a, d)
    | .store n a v p => 1 :: store.put (n, a, v, p)
    | .atom o a b e d => 2 :: atom.put (o, a, b, e, d)
    | .hld n a => 3 :: ((codeFin 31).pair codeN).put (n, a)
    | .hst a v p => 4 :: hst.put (a, v, p)
    | .scl n a => 5 :: ((codeFin 3).pair codeN).put (n, a)
    | .vread v => 6 :: codeVCtx.put v
    | .vwrite ws es => 7 :: write.put (ws, es)
    | .gwindow v ix d c g p => 8 :: window.put (v, ix, d, c, g, p)
    | .dlist i h hs a b p => 9 :: list.put (i, h, hs, a, b, p)
    | .engine i vs a p => 10 :: engine.put (i, vs, a, p)
    | .send a k t => 11 :: send.put (a, k, t)
    | .recv a k c l => 12 :: recv.put (a, k, c, l)
    | .header d t p => 13 :: header.put (d, t, p)
    | .serve l w => 14 :: serve.put (l.snapCode, w)
    | .portServe p m n w => 15 :: port.put (p, m, n, w),
   do match (← codeByte.get) with
    | 0 => let (n, sg, a, d) ← load.get; return .load n sg a d
    | 1 => let (n, a, v, p) ← store.get; return .store n a v p
    | 2 => let (o, a, b, e, d) ← atom.get; return .atom o a b e d
    | 3 => let (n, a) ← ((codeFin 31).pair codeN).get; return .hld n a
    | 4 => let (a, v, p) ← hst.get; return .hst a v p
    | 5 => let (n, a) ← ((codeFin 3).pair codeN).get; return .scl n a
    | 6 => return .vread (← codeVCtx.get)
    | 7 => let (ws, es) ← write.get; return .vwrite ws es
    | 8 => let (v, ix, d, c, g, p) ← window.get; return .gwindow v ix d c g p
    | 9 => let (i, h, hs, a, b, p) ← list.get; return .dlist i h hs a b p
    | 10 => let (i, vs, a, p) ← engine.get; return .engine i vs a p
    | 11 => let (a, k, t) ← send.get; return .send a k t
    | 12 => let (a, k, c, l) ← recv.get; return .recv a k c l
    | 13 => let (d, t, p) ← header.get; return .header d t p
    | 14 => let (l, w) ← serve.get; return .serve (laneOfCode l) w
    | _ => let (p, m, n, w) ← port.get; return .portServe p m n w⟩

def codeAccess : Code Access :=
  (codeDue.pair <| codeN.pair <| codeByte.pair <| codeN.pair <| codeN.pair codeAccOp).to
    (fun (d, q, sl, i, c, o) => ⟨d, q, sl, i, c, o⟩) fun x => (x.due, x.seq, x.slot, x.iss, x.ictl, x.op)

def codePWrite : Code PWrite :=
  (codeDue.pair <| codeN.pair <| codeByte.pair <| codeBool.pair <| (codeNat 4).pair <| (codeNat 4).pair <| (codeBits 8).pair <|
      (codeBits 64).pair codeBool).to
    (fun (d, q, sl, m, a, w, k, v, p) => ⟨d, q, sl, m, a, w, k, v, p⟩)
    fun x => (x.due, x.seq, x.slot, x.mport, x.addr, x.word, x.mask, x.data, x.poison)

/-! ## The M paths -/

def codeMCtx : Code MCtx :=
  (codeInstr.pair <| codeN.pair <| codeByte.pair <| (codeFin 1).pair <| (codeBits 256).pair <| (codeBits 256).pair <|
      (codeBits 32).pair <| (codeBits 32).pair <| codeRMode.pair <| codeN.pair <| codeN.pair <| codeN.pair <| codeN.pair <|
      codeN.pair <| (codeList (codeN.pair codeN)).pair (codeList codeN)).to
    (fun (i, q, sl, z, a, b, y, x, f, bs, st, is, pf, g, cs, bd) => ⟨i, q, sl, z, a, b, y, x, f, bs, st, is, pf, g, cs, bd⟩)
    fun c => (c.op, c.seq, c.slot, c.z, c.ha, c.hb, c.ym, c.xm, c.frm, c.base, c.steps, c.iss, c.prefix_, c.group, c.counts,
      c.badGroups)

/-- The exponents of a row, with their poison. -/
def codeExps : Code (List (Option Int × Bool)) := codeList ((codeOpt (codeInt 1)).pair codeBool)

/-- Rows one after another: how many words each has, whether it is bad, whether its exponents are those of the row before
it, its words, and its exponents if they are others. -/
def putRows : (prev : List (Option Int × Bool)) → List PlaneRow → List Byte
  | _, [] => []
  | prev, r :: rs =>
    leBytes 1 (r.words.length + boolNat r.bad 64 + boolNat (r.exps == prev) 128) ++ r.words.flatMap codeN.put ++
      (if r.exps == prev then [] else codeExps.put r.exps) ++ putRows r.exps rs

def getRows : (prev : List (Option Int × Bool)) → (n : Nat) → Get (List PlaneRow)
  | _, 0 => return []
  | prev, n + 1 => do
    let h ← codeByte.get
    let ws ← getMany codeN.get (h % 64)
    let es ← if bitOf h 7 then (return prev : Get _) else codeExps.get
    return ⟨ws, bitOf h 6, es⟩ :: (← getRows es n)

def codeRows : Code (List PlaneRow) :=
  ⟨fun rs => leBytes 2 rs.length ++ putRows [] rs, do
    let n ← (codeNat 2).get
    fun bs => getRows [] (min n bs.length) bs⟩

def codeResidue : Code Residue :=
  ((codeFin 1).pair <| codeN.pair <| (codeFin 31).pair <| (codeFin 31).pair <| (codeFin 3).pair (codeInt 72)).to
    (fun (z, st, r, c, sl, f) => ⟨z, st, r, c, sl, f⟩) fun e => (e.z, e.step, e.row, e.col, e.slice, e.formed)

def codeStep : Code StepData :=
  (codeN.pair <| codeN.pair <| codeByte.pair <| codeRows.pair <| codeRows.pair (codeList codeResidue)).to
    (fun (st, a, l, x, y, e) => ⟨st, a, l, x, y, e⟩) fun d => (d.step, d.at_, d.level, d.a, d.b, d.errs)

def codeContrib : Code Contrib :=
  (codeN.pair <| (codeInt 73).pair <| codeBool.pair codeN).to (fun (i, a, p, d) => ⟨i, a, p, d⟩)
    fun c => (c.idx, c.amount, c.psn, c.disc)

/-- What an M instruction still has to do, by a number for its kind. -/
def codeMAct : Code MAct :=
  let rows := codeN.pair <| codeRows.pair codeN
  let write := (codeList codeLine).pair codeN
  ⟨fun act => match act with
    | .count q a => 0 :: (codeN.pair codeN).put (q, a)
    | .fetch js l => 1 :: ((codeList codeN).pair codeN).put (js, l)
    | .steps ds => 2 :: (codeList codeStep).put ds
    | .rawRow r => 3 :: codeN.put r
    | .readSet => [4]
    | .pack j => 5 :: codeN.put j
    | .unpack j => 6 :: codeN.put j
    | .expand j rs v => 7 :: rows.put (j, rs, v)
    | .hold j rs => 8 :: rows.put (j, rs, 0)
    | .write ws v => 9 :: write.put (ws, v)
    | .land cs => 10 :: (codeList codeContrib).put cs
    | .clear z => 11 :: (codeFin 1).put z,
   do match (← codeByte.get) with
    | 0 => let (q, a) ← (codeN.pair codeN).get; return .count q a
    | 1 => let (js, l) ← ((codeList codeN).pair codeN).get; return .fetch js l
    | 2 => return .steps (← (codeList codeStep).get)
    | 3 => return .rawRow (← codeN.get)
    | 4 => return .readSet
    | 5 => return .pack (← codeN.get)
    | 6 => return .unpack (← codeN.get)
    | 7 => let (j, rs, v) ← rows.get; return .expand j rs v
    | 8 => let (j, rs, _) ← rows.get; return .hold j rs
    | 9 => let (ws, v) ← write.get; return .write ws v
    | 10 => return .land (← (codeList codeContrib).get)
    | _ => return .clear (← (codeFin 1).get)⟩

def codeMTask : Code MTask :=
  (codeDue.pair <| codeN.pair codeMAct).to (fun (d, q, a) => ⟨d, q, a⟩) fun x => (x.due, x.mseq, x.act)

/-! ## The core, the clocks and the faults -/

def codeXfer : Code Transfer :=
  let kinds : List XferKind := [.br, .call, .ret, .jal, .jr, .eret]
  (codeByte.pair <| codeN.pair <| codeN.pair codeN).to (fun (k, t, l, c) => ⟨kinds.getD k .br, t, l, c⟩)
    fun x => (kinds.idxOf x.kind, x.target, x.left, x.cdepth)

def codeRun : Code RunState :=
  (codeByte.pair codeN).to
    (fun (k, n) => match k with
      | 0 => .running
      | 1 => .waiting n
      | 2 => .armed
      | 3 => .stopped
      | _ => .done)
    fun r => match r with
      | .running => (0, 0)
      | .waiting n => (1, n)
      | .armed => (2, 0)
      | .stopped => (3, 0)
      | .done => (4, 0)

def codeLoc : Code Loc :=
  (codeN.pair <| codeN.pair <| codeN.pair codeN).to (fun (t, c, r, x) => ⟨t, c, r, x⟩) fun l => (l.ltype, l.lcol, l.lrow, l.lsite)

def codeFault : Code FaultRec :=
  (codeBool.pair <| codeN.pair <| codeN.pair <| (codeBits 64).pair <| codeN.pair (codeOpt codeLoc)).to
    (fun (v, sl, c, a, f, l) => ⟨v, sl, c, a, f, l⟩) fun x => (x.valid, x.slot, x.code, x.faddr, x.fcyc, x.loc)

def codeBank : Code Bank :=
  (codeByte.pair (codeOpt codeDue)).to
    (fun (k, w) => ⟨match k with
      | 0 => .on
      | 1 => .ret
      | _ => .off, w⟩)
    fun b => (match b.st with
      | .on => 0
      | .ret => 1
      | .off => 2, b.wake)

def codeDivs : Code Divs :=
  (codeN.pair <| codeN.pair <| codeN.pair codeN).to (fun (c, m, v, p) => ⟨c, m, v, p⟩) fun d => (d.ctl, d.mat, d.vec, d.cpy)

def codeClock : Code Clock :=
  (codeDivs.pair <| codeN.pair <| codeN.pair <| codeN.pair <| codeN.pair <| codeN.pair <| codeBool.pair <|
      (codeOpt codeDivs).pair <| (codeOpt codeDivs).pair <| codeN.pair (codeOpt (codeN.pair codeDivs))).to
    (fun (d, o, c, m, v, p, b, pe, t, a, h) => ⟨d, o, c, m, v, p, b, pe, t, a, h⟩)
    fun k => (k.div, k.org, k.ctl, k.mat, k.vec, k.cpy, k.liveB, k.pend, k.target, k.progAt, k.handover)

/-- The clock state of a cluster but for its SCY, its place and its grant: the divisors of CDIV, a pending CLKDIV, a hold,
the fidelity level and the variant. -/
def codeCluster : Code Cluster :=
  (codeN.pair <| codeN.pair <| codeClock.pair <| codeByte.pair <| codeByte.pair (codeInt 8)).to
    (fun (h, e, k, f, v, x) => { Cluster.none with hold := h, held := e, clk := k, fid := f, variant := v, slip := x })
    fun c => (c.hold, c.held, c.clk, c.fid, c.variant, c.slip)

def codeSync : Code SyncReq :=
  let kind : Code SyncKind :=
    (codeByte.pair <| codeN.pair <| codeN.pair (codeOpt codeN)).to
      (fun (k, n, l, e) => match k with
        | 0 => .publish
        | 1 => .realign
        | 2 => .pswitch n l e
        | 3 => .repb n
        | _ => .halt)
      fun x => match x with
        | .publish => (0, 0, 0, none)
        | .realign => (1, 0, 0, none)
        | .pswitch n l e => (2, n, l, e)
        | .repb n => (3, n, 0, none)
        | .halt => (4, 0, 0, none)
  (kind.pair <| codeN.pair <| codeByte.pair codeBool).to (fun (k, c, sl, a) => ⟨0, k, c, sl, a⟩)
    fun x => (x.kind, x.scy, x.slot, x.applied)

/-! ## The Taper engine -/

def codeTRec : Code TRec :=
  (codeBool.pair <| codeN.pair <| codeByte.pair codeN).to
    (fun (k, a, sl, w) => if k then .cmd a sl (BitVec.ofNat 32 w) else .imm (word w))
    fun x => match x with
      | .cmd a sl w => (true, a, sl, w.toNat)
      | .imm v => (false, 0, 0, v.toNat)

/-- The recorder between two bundles. -/
def codeRecorder : Code Recorder :=
  ((codeFlags 8).pair <| codeByte.pair <| codeByte.pair <| codeN.pair <| codeN.pair <| codeN.pair <| codeN.pair <| codeN.pair <|
      codeByte.pair <| (codeList codeTRec).pair <| (codeList codeTRec).pair <| (codeOpt codeN).pair <|
      (codeList (codeBits 64)).pair <| codeN.pair <| (codeBits 57).pair (codeBits 16)).to
    (fun (b, v, f, r, ic, ia, n, la, d, bo, cu, p, st, rp, wm, wq) =>
      let x (k : Nat) : Bool := b.getD k false
      ⟨x 0, x 1, x 2, x 3, x 4, v, f, r, ic, ia, x 5, x 6, n, la, d, bo, cu, p, st, rp, wm, wq, x 7, none⟩)
    fun r => ([r.recBit, r.tinv, r.exists_, r.open_, r.span, r.partial_, r.ended, r.headed], r.variant, r.fid, r.reason, r.invCyc,
      r.invAddr, r.nrec, r.last, r.depth, r.body, r.cur, r.period, r.strides, r.reps, r.wmask, r.wqmask)

/-- The replay engine: what it has read ahead is read again from `org` on. -/
def codeReplayer : Code Replayer :=
  (codeBool.pair <| codeBool.pair <| codeBool.pair <| codeN.pair <| codeN.pair <| codeN.pair <| codeN.pair <|
      (codeOpt codeN).pair <| (codeOpt codeN).pair <| (codeOpt codeN).pair <| (codeOpt codeN).pair
      (codeList (codeByte.pair (codeBits 64)))).to
    (fun (b, a, rd, ba, po, o, oa, os, sa, ea, en, pd) =>
      { Replayer.reset with bit := b, active := a, ready := rd, base := ba, pos := po, org := o, orgAt := oa, orgState := os,
                            stateAt := sa, endAt := ea, enter := en, pd := pd })
    fun r => (r.bit, r.active, r.ready, r.base, r.pos, r.org, r.orgAt, r.orgState, r.stateAt, r.endAt, r.enter, r.pd)

end Sys2Proof.Machine
end

