-- ==== Sys2Proof/Machine/Snapshot.lean ====
section
/-! DEFINITION. Snapshots (R373 to R376): their bytes in bulk memory, and the check of a header at a resume. -/

namespace Sys2Proof.Machine

/-! ## Blocks -/

/-- Bytes padded with zeros to a multiple of n. -/
def padTo (n : Nat) (bs : List Byte) : List Byte := bs ++ List.replicate ((n - bs.length % n) % n) 0

def flat {α : Type} (f : α → List Byte) (xs : List α) : List Byte := xs.flatMap f

/-- Poison marks in the layouts of TAINT and TAINTQ (R374). -/
def Core.poisonS (c : Core) : Nat :=
  (List.range 48).foldl (fun acc n => acc + boolNat ((c.s.toList.getD n .zero).poison && n != 0) (2 ^ n)) 0

def Core.poisonQ (c : Core) : Nat :=
  boolNat c.l.poison (2 ^ 24) +
    (List.range 8).foldl (fun acc n => acc + boolNat (c.o.toList.getD n .zero).poison (2 ^ (16 + n))) 0 +
    (List.range 16).foldl (fun acc n => acc + boolNat ((c.q.toList.getD n .zero).poison && 2 ≤ n) (2 ^ n)) 0

/-- The core block (R374). -/
def Tile.coreBlock (t : Tile) (k : Cluster) : List Byte :=
  let c := t.core
  let qs := (List.range 16).foldl (fun acc n => acc + boolNat (c.readQ (Fin.ofNat 16 n)).val (2 ^ n)) 0
  let regs := flat (fun x : SReg => leBytes 8 x.val.toNat) (c.s.toList ++ c.o.toList ++ [c.l])
  let special := [t.fflags.toNat, t.frm.toNat, t.status k, t.cause.word.toNat, t.cause.faddr.toNat, t.cause.fcyc] ++
    t.slerr.toList ++ [t.spce, t.csce]
  let level (n : Nat) : LoopLevel := (c.level n).getD ⟨0, 0, 0, false, 0⟩
  let head := regs ++ flat (leBytes 8) [qs, c.taintS, c.taintQ, c.poisonS, c.poisonQ] ++
    flat (fun b : BitVec 32 => leBytes 4 b.toNat) c.b.toList ++ flat (leBytes 8) special
  padBytes 0x300 head ++ leBytes 8 c.ldepth ++
    flat (fun n => leBytes 8 (level n).cnt ++ leBytes 4 (level n).start ++ leBytes 4 (level n).last) (List.range 8) ++
    flat (fun n => leBytes 1 (boolNat (level n).supp 128 + (level n).cdepth % 16)) (List.range 8)

/-- The K state in the order of R374. -/
def Tile.kBlock (t : Tile) : List Byte :=
  let marks := t.handles.toList.zipIdx.foldl (fun acc x => acc + boolNat x.1.poison (2 ^ x.2)) 0
  flat (fun g : Gen => flat (fun w : Word => leBytes 8 w.toNat) [g.wordP, g.wordC, g.wordS, g.wordPos]) t.gens.toList ++
    flat (fun h : Handle => leBytes 32 h.bits.toNat) t.handles.toList ++ leBytes 4 marks ++
    flat (fun k : Scale => leBytes 256 k.bytes.toNat) t.scales.toList ++
    flat (fun k : Scale => leBytes 4 k.poison.toNat) t.scales.toList ++
    flat (fun m : BitVec 32 => leBytes 4 m.toNat) (t.ym.toList ++ t.xm.toList) ++
    flat (fun m : BitVec 64 => leBytes 8 m.toNat) t.vm.toList

/-- The accumulator marks of z0 and z1, and STEPC of each (R374). -/
def Tile.zBlock (t : Tile) : List Byte :=
  flat (fun a : AccSet => (List.range 1024).map fun i =>
    BitVec.ofNat 8 (boolNat (a.cell i).psn 128 + (a.cell i).dcnt % 128)) t.acc.toList ++
    flat (fun a : AccSet => leBytes 8 a.stepc) t.acc.toList

def SlotSt.code : SlotSt → Nat
  | .empty => 0
  | .fill => 1
  | .ready => 2
  | .drain => 3

def WinMode.code : WinMode → Nat
  | .free => 0
  | .copy => 1
  | .streaming => 2

/-- The state word of a window (R339). -/
def Window.stateWord (w : Window) : Nat :=
  w.mode.code * 2 ^ 58 + w.cp.val * 2 ^ 57 + (w.st.get 1).code * 2 ^ 55 + (w.st.get 0).code * 2 ^ 53 +
    boolNat w.out (2 ^ 52) + boolNat w.chk.isSome (2 ^ 48) + w.done % 2 ^ 16 * 2 ^ 32 + w.pend % 2 ^ 28

/-- A window's 256 bytes. -/
def Window.bytes (w : Window) : List Byte :=
  padBytes 256 (leBytes 8 w.stateWord ++ leBytes 8 (w.chk.getD 0) ++ leBytes 32 w.handle.toNat ++ leBytes 8 w.n ++
    leBytes 8 (toRaw 64 w.adv) ++ leBytes 8 w.s1off)

/-- A window-map entry in the layout of R330. -/
def Page.bytes (p : Page) : List Byte :=
  let sz := ((List.range 15).find? fun k => 2 ^ (16 + k) == p.size).getD 0
  let lo := p.va / 2 ^ 16 * 2 ^ 16 + boolNat p.hc (2 ^ 10) + boolNat p.rp (2 ^ 9) + boolNat p.ap (2 ^ 8) + boolNat p.wt (2 ^ 7) +
    boolNat p.ro (2 ^ 6) + boolNat p.rd (2 ^ 5) + sz
  leBytes 8 lo ++ leBytes 8 (p.kind * 2 ^ 62 + p.frame / 2 ^ 16)

/-! ## Results in flight (R375) -/

/-- The start of the n-th cycle of a domain after the one that runs at a schedule cycle: the cycles of div, counted from org,
and from a handover on those of the new divisor, the first of which starts with it (R5, R350). -/
def Clock.startAfter (k : Clock) (scy div : Nat) (next : Divs → Nat) (n : Nat) : Nat :=
  let plain := k.org + (scy - k.org) / div * div + n * div
  match k.handover with
  | none => plain
  | some (h, d) =>
    let before := (h - 1 - k.org) / div - (scy - k.org) / div
    if n ≤ before then plain else h + (n - before - 1) * next d

/-- The schedule cycle at which a landing falls due. -/
def Clock.startOf (k : Clock) (scy : Nat) (d : Due) : Nat :=
  match d.dom with
  | .ref => d.at_
  | .ctl => k.startAfter scy k.div.ctl (·.ctl) (d.at_ - k.ctl)
  | .mat => k.startAfter scy k.div.mat (·.mat) (d.at_ - k.mat)
  | .vec => k.startAfter scy k.div.vec (·.vec) (d.at_ - k.vec)
  | .cpy => k.startAfter scy k.div.cpy (·.cpy) (d.at_ - k.cpy)

/-- A result in flight: LAND, the number of its slot issue, whether its access is still to come, the result, and the
flags that land with it. -/
structure Flight where
  land : Nat
  seq : Nat
  early : Bool
  result : Saved
  flags : Nat
  deriving DecidableEq, Repr

/-- The results among some landings, each with the flags of its issue that land with it; flags alone stand at s0, which
discards what is written to it (R79, R92). -/
def flightsOf (k : Clock) (scy : Nat) (early : Bool) (xs : List Landing) : List Flight :=
  let with_ (x y : Landing) : Bool := x.seq == y.seq && x.due == y.due
  let flags (x : Landing) : Nat := xs.foldl (fun acc y => match y.eff with
    | .flags f => if with_ x y then Nat.lor acc f.toNat else acc
    | _ => acc) 0
  xs.filterMap fun x =>
    if x.eff.isFlags then
      if xs.any fun y => with_ x y && !y.eff.isFlags then none
      else some ⟨k.startOf scy x.due, x.seq, early, saveAt 0 [], flags x⟩
    else some ⟨k.startOf scy x.due, x.seq, early, x.eff.saved, flags x⟩

/-- The results of an access that its bank cycle is still to make, as the stored words and the writes visible by then give
them: those of a load, and those of a V instruction once its lines are read. -/
def State.foretell (s : State) (i : Nat) (k : Clock) (scy : Nat) : (fuel : Nat) → Access → List Landing
  | 0, _ => []
  | fuel + 1, x =>
    let land := k.startOf scy x.due
    let s1 := (s.modTile i fun t =>
      { t with core := { t.core with lands := [] }, accs := [],
               wbuf := t.wbuf.map fun w => if k.startOf scy w.due ≤ land then { w with due := ⟨.ref, 0⟩ } else w }).commitWrites i
    match (s1.doAccess i x land).tile? i with
    | none => []
    | some t => t.core.lands ++ t.accs.flatMap fun y => s.foretell i k scy fuel y

def insertFlight (x : Flight) : List Flight → List Flight
  | [] => [x]
  | y :: ys => if y.land < x.land ∨ (y.land = x.land ∧ y.seq ≤ x.seq) then y :: insertFlight x ys else x :: y :: ys

/-- The results in flight of tile i, by landing cycle and then issue order. -/
def State.flights (s : State) (i : Nat) (t : Tile) (k : Clock) (scy : Nat) : List Flight :=
  (flightsOf k scy false (sortLandings t.core.lands.reverse) ++
    t.accs.flatMap fun x => flightsOf k scy true (if x.op.isServe then [] else s.foretell i k scy 2 x)).foldl
      (fun acc x => insertFlight x acc) []

/-- One entry of 320 bytes. -/
def Flight.entry (x : Flight) : List Byte :=
  padBytes 0x120 (leBytes 8 x.land ++ leBytes 2 x.result.dest ++ leBytes 1 x.result.marks ++ leBytes 5 0 ++ leBytes 8 x.flags ++
    leBytes 8 0 ++ x.result.value) ++ leBytes 4 x.result.groups ++ List.replicate 28 0

/-- The in-flight block. -/
def flightBlock (xs : List Flight) : List Byte := padBytes 64 (leBytes 8 xs.length) ++ flat Flight.entry xs

/-! ## The mesh block (R374) -/

/-- An entry of 32 bytes: arrival cycle, input lane, tag, poison and header, the word. -/
def MeshWord.entry (w : MeshWord) (at_ lane : Nat) : List Byte :=
  leBytes 8 at_ ++ leBytes 1 lane ++ leBytes 1 w.tag.toNat ++ leBytes 1 (boolNat w.poison 1 + boolNat w.header 2) ++ leBytes 5 0 ++
    leBytes 16 w.data.toNat

/-- The seam buffer that holds the word of the entry before it, as an entry of lane 7. -/
def Seam.entry (x : Seam) : List Byte :=
  (⟨BitVec.ofNat 128 (x.arrive + x.cap * 2 ^ 64), BitVec.ofNat 8 (16 * x.edge + x.gate), x.late, false⟩ : MeshWord).entry x.due 7

def Arrival.entries (a : Arrival) : List (List Byte) := a.word.entry a.at_ a.lane.snapCode :: (a.seam.map Seam.entry).toList

/-- The words in the buffer of the port that tile t's launch holds through it (R324). -/
def State.portWords (s : State) (t : Tile) : List MeshWord :=
  match s.portOf t with
  | some p => if s.grouped t then (s.ports.get p).buffer else []
  | none => []

/-- The streams of that port that have lost a word (R265). -/
def State.portLost (s : State) (t : Tile) : List (BitVec 8) :=
  match s.portOf t with
  | some p => if s.grouped t then (s.ports.get p).lost else []
  | none => []

/-- The entries of a tile: the receive queue under lane 5, the words still to arrive under their lanes, each followed by
the entry of the seam buffer it waits in, and the words of the port buffer under lane 6. DEDUCED, log entry 89. -/
def State.meshEntries (s : State) (t : Tile) : List (List Byte) :=
  (t.rq.map fun w => w.entry 0 5) ++ t.arrivals.flatMap Arrival.entries ++ (s.portWords t).map fun w => w.entry 0 6

/-- How many of them the block has room for; the others follow the paths. -/
def meshRoom : Nat := 119

/-- Route entries, ACT, STAG and ETAG, then entries. -/
def State.meshBlock (s : State) (t : Tile) : List Byte :=
  padBytes 0x120 (flat (fun w : Word => leBytes 8 w.toNat) t.routes.toList ++ flat (leBytes 8) t.act.toList ++
      leBytes 1 t.stag.toNat ++ leBytes 1 t.etag.toNat) ++ ((s.meshEntries t).take meshRoom).flatten

/-! ## The engine block and the path block (R374) -/

/-- What the engine block holds: the recorder and the replay engine, the clock state of the tile's cluster, a pending
FIDSET, the bank states, and the model's own fields of the core and the tile that have no place of their own.
DESIGN CHOICE, log entry 102. -/
def codeEngine := codeRecorder.pair <| codeReplayer.pair <| codeCluster.pair <| (codeOpt (codeN.pair codeN)).pair <|
  codeBank.pair <| codeBank.pair <| codeN.pair <| (codeOpt codeXfer).pair <| codeBool.pair <| codeN.pair <| codeN.pair <|
  codeRun.pair <| codeFault.pair <| codeFault.pair <| (codeOpt codeLoc).pair <| codeByte.pair <| codeN.pair <| codeBool.pair codeByte

def Tile.engineBlock (t : Tile) (k : Cluster) : List Byte :=
  let c := t.core
  codeEngine.put (t.rec_, t.rep, k, t.pendFid, t.bank1, t.bank2, c.pc, c.xfer, c.target, c.seq, c.sLast, t.run, t.halt, t.deferred,
    t.cause.loc, t.variant, t.nsw, t.stay, t.lastLvl)

/-- The path that an M instruction takes (R163). -/
def mPath : Instr → Nat
  | .mout .. | .moutr .. | .mstat .. => 1
  | .mpack .. | .munpk .. => 2
  | _ => 0

def isMunpk : Instr → Bool
  | .munpk .. => true
  | _ => false

/-- The path of a pending act; that of MCLR, which keeps no context, stands with the array. -/
def Tile.taskPath (t : Tile) (x : MTask) : Nat := ((t.mctx.find? fun c => c.seq == x.mseq).map fun c => mPath c.op).getD 0

/-- An act without the rows that the `hold` beside it has (R374). -/
def MTask.lean (x : MTask) : MTask :=
  match x.act with
  | .expand j _ v => { x with act := .expand j [] v }
  | _ => x

def codePath := codeN.pair <| (codeList codeMCtx).pair (codeList codeMTask)

def Tile.pathPart (t : Tile) (p : Fin 3) : List Byte :=
  codePath.put (t.mbusy.get p, t.mctx.filter fun c => mPath c.op == p.val, (t.mtasks.filter fun x => t.taskPath x == p.val).map MTask.lean)

def AccOp.isV : AccOp → Bool
  | .vread .. | .vwrite .. | .gwindow .. => true
  | _ => false

/-- Whether an access belongs to the second V instruction of its bundle, as far as its own bundle's other one is pending. -/
def Tile.second (t : Tile) (x : Access) : Bool := t.accs.any fun y => y.op.isV && y.iss == x.iss && y.seq < x.seq

def codeUnit := (codeOpt codeN).pair (codeList codeAccess)

def Tile.unitPart (t : Tile) (u : Fin 2) : List Byte :=
  codeUnit.put (t.vbusy.get u, t.accs.filter fun x => x.op.isV && t.second x == (u == 1))

/-- The fields of a window that its 256 bytes do not hold. -/
def codeWindow := codeN.pair <| codeN.pair <| (codeFin 1).pair <| codeByte.pair <| codeN.pair
  (codeList (codeN.pair <| (codeInt 8).pair (codeInt 8)))

def Window.rest (w : Window) := (w.done, w.released, w.chkPar, w.slot, w.iss, w.dims.map fun d => (d.ext, d.sstr, d.bstr))

/-- What follows the paths: the accesses of the other parties, the writes that are not visible yet but for those that the
rows of MUNPK give again, the issue numbers of the results in flight, the rest of the windows, requests of slots that every
tile issues together, corruptions still to come, of each shadow run its slot, cycle, phase and poison and of each CATOM record
its slot, cycle and phase, the mesh entries past the block, and the streams of the home port that have lost a word. -/
def codeOthers := (codeList codeAccess).pair <| (codeList codePWrite).pair <| (codeList (codeN.pair codeBool)).pair <|
  (codeList codeWindow).pair <| (codeList codeSync).pair <| (codeList codeResidue).pair <|
  (codeList (codeByte.pair <| codeN.pair <| codeN.pair codeRuns)).pair <| (codeList (codeByte.pair <| codeN.pair codeN)).pair <|
  (codeList (codeBits 8)).pair (codeList (codeBits 8))

def State.otherPart (s : State) (i : Nat) (t : Tile) (xs : List Flight) : List Byte :=
  let again (w : PWrite) : Bool := t.mctx.any fun c => c.seq == w.seq && isMunpk c.op
  codeOthers.put (t.accs.filter (!·.op.isV), t.wbuf.filter (!again ·), xs.map fun x => (x.seq, x.early),
    t.wins.toList.map Window.rest, s.syncs.filter (·.tile == i), t.residues,
    t.shadow.map fun r => (r.slot, r.iss, r.phase, r.poison), t.catoms.map fun c => (c.slot, c.iss, c.phase),
    ((s.meshEntries t).drop meshRoom).flatten, s.portLost t)

/-- Parts one after another, each from its place on or where the one before it ends, if that is later. -/
def layParts : List (Nat × List Byte) → (acc : List Byte) → List Byte
  | [], acc => acc
  | (o, p) :: ps, acc => layParts ps (acc ++ List.replicate (o - acc.length) 0 ++ p)

/-- The path block: V units 0 and 1, array, output and conversion at the places of R374, and what follows them. -/
def State.pathBlock (s : State) (i : Nat) (t : Tile) (xs : List Flight) : List Byte :=
  layParts [(0, t.unitPart 0), (0x2000, t.unitPart 1), (0x4000, t.pathPart 0), (0x8000, t.pathPart 1), (0x1C000, t.pathPart 2),
    (0x1C000, s.otherPart i t xs)] []

/-- What the three blocks of a tile that have no fixed contents hold past their room, which stays with the launch.
DESIGN CHOICE, log entry 102. -/
def State.spillOf (s : State) (i : Nat) (t : Tile) (k : Cluster) : List (List Byte) :=
  let xs := s.flights i t k.clk k.scy
  [(t.engineBlock k).drop 0x1000, (flightBlock xs).drop 0x10000, (s.pathBlock i t xs).drop 0x20000]

/-! ## The record of a tile, the shadow block and the header -/

/-- The poison bits of the scratchpad: bit w for word w. -/
def Tile.poisonBlock (t : Tile) : List Byte :=
  (List.range 0x8000).map fun b =>
    BitVec.ofNat 8 ((List.range 8).foldl (fun acc j => acc + boolNat (t.sp.wordPoisoned (8 * b + j)) (2 ^ j)) 0)

/-- The blocks of a tile record with their offsets; a soft snapshot holds the boundary's SLERR (R365) and Taper memory, the
rest of it being zero (R373). -/
def State.recordBlocks (s : State) (i : Nat) (t : Tile) (k : Cluster) (pages : List Page) (slerr : Vector Nat 4) (hard : Bool) :
    List (Nat × List Byte) :=
  if hard then
    let xs := s.flights i t k.clk k.scy
    [(0, padBytes 0x1000 (t.coreBlock k)), (0x1000, padBytes 0x2000 t.kBlock), (0x3000, padBytes 0x1000 t.zBlock),
      (0x4000, padBytes 0x1000 (s.meshBlock t)), (0x5000, flat Window.bytes t.wins.toList),
      (0x6000, padBytes 0x1000 (flat Page.bytes pages)), (0x7000, padBytes 0x1000 (t.engineBlock k)),
      (0x8000, padBytes 0x10000 (flightBlock xs)), (0x18000, padBytes 0x20000 (s.pathBlock i t xs)),
      (0x38000, t.poisonBlock),
      (0x40000, flat (fun a : AccSet => flat (fun i => leBytes 72 (a.cell i).acc.toNat) (List.range 1024)) t.acc.toList),
      (0x64000, List.replicate 0x1C000 0), (0x80000, t.tape.bytes 0 Config.taperSize), (0xC0000, t.sp.bytes 0 Config.spSize)]
  else
    [(0, padBytes 0x80000 (List.replicate 0x230 0 ++ flat (leBytes 8) slerr.toList)),
      (0x80000, t.tape.bytes 0 Config.taperSize), (0xC0000, List.replicate Config.spSize 0)]

/-- A shadow run (R376). -/
def ShadowRun.bytes (r : ShadowRun) (posn : Nat) : List Byte :=
  let n := r.data.length
  leBytes 8 r.va ++ leBytes 4 n ++ leBytes 4 posn ++ padTo 16 r.data ++
    (List.range ((n + 7) / 8)).map fun g => BitVec.ofNat 8 (boolNat (((r.poison.drop (8 * g)).take 8).any id) 1)

/-- A CATOM record (R376). -/
def CatomRec.bytes (c : CatomRec) (posn : Nat) : List Byte :=
  leBytes 8 c.va ++ leBytes 8 c.operand.toNat ++ leBytes 4 posn ++ codeAtom.put c.op ++ leBytes 3 0 ++ leBytes 8 c.ord

/-- The shadow block (R376): the runs of every tile, a head of zeros, and the CATOM records. -/
def shadowBlock (ts : List Tile) : List Byte :=
  (ts.flatMap fun t => t.shadow.flatMap fun r => r.bytes t.posn) ++ List.replicate 16 0 ++
    ts.flatMap fun t => t.catoms.flatMap fun c => c.bytes t.posn

/-- The wall cycles that remain of a lease above SUS, with its level (R297). -/
def State.leaseLeft (s : State) (r : Region) : Option (Nat × Nat) :=
  match r.leased s.mod_.sus, r.expiry with
  | some lv, some w => if s.wcy < w then some (lv, w - s.wcy) else none
  | _, _ => none

/-- The first 256 bytes of the header (R373). -/
def State.snapHead (s : State) (l : Launch) (r : Region) (hard : Bool) (ntile shoff shlen : Nat) : List Byte :=
  let c := r.clusters.headD .none
  let drift := (List.range 80).map fun k =>
    BitVec.ofNat 8 ((r.clusters.getD k { Cluster.none with scy := r.scy }).scy - r.scy)
  let h := leBytes 4 0x4B575333 ++ leBytes 2 3 ++ leBytes 1 Config.gen ++ leBytes 1 (boolNat (!hard) 1) ++ leBytes 8 l.id ++
    leBytes 8 l.img.tthash.toNat ++ leBytes 8 r.word ++ leBytes 4 l.img.mapclass ++ leBytes 4 0x02020208 ++ leBytes 8 r.scy ++
    leBytes 8 r.stopW ++ leBytes 4 ntile ++ leBytes 4 0x2C0000 ++ leBytes 8 r.bphase ++ leBytes 4 r.boundary.num ++
    leBytes 1 c.variant ++ leBytes 1 c.fid ++ leBytes 1 c.grant ++ leBytes 1 0 ++
    leBytes 8 (((s.leaseLeft r).map (·.2)).getD (2 ^ 64 - 1)) ++ leBytes 8 shoff ++ leBytes 8 shlen ++ drift ++ List.replicate 68 0
  h ++ leBytes 4 (crc32c h)

/-- What the launch of a region keeps beside its hard snapshot, by POSN. -/
def State.spill (s : State) (r : Region) : List (List (List Byte)) :=
  (s.tiles.zipIdx.filter fun x => x.1.region == r.id).map fun x => s.spillOf x.2 x.1 (r.clusters.getD x.1.cluster .none)

/-- Writes a snapshot at SAVE (R373). -/
def State.writeSnapshot (s : State) (l : Launch) (r : Region) (hard : Bool) : State :=
  let ts := s.tiles.zipIdx.filter fun x => x.1.region == r.id
  let shadow := if hard then shadowBlock (ts.map (·.1)) else []
  let shoff := 0x1000 + 0x2C0000 * ts.length
  let n := queueLantern l.queue
  let head := padBytes 0x1000 (s.snapHead l r hard ts.length shoff shadow.length)
  let blocks := ts.flatMap fun x =>
    (s.recordBlocks x.2 x.1 (r.clusters.getD x.1.cluster .none) l.img.pages
        (r.boundary.slerr.getD x.1.posn (Vector.replicate 4 0)) hard).map fun b =>
      (0x1000 + 0x2C0000 * x.1.posn + b.1, b.2)
  ((0, head) :: blocks ++ [(shoff, shadow)]).foldl (fun s b => s.writeVa n (l.desc.saveVa + b.1) b.2) s

/-- Whether a resume refuses a header (R376). -/
def snapBad (g : Image) (bs : List Byte) : Bool :=
  getLE bs 0 4 != 0x4B575333 || getLE bs 4 2 != 3 || getLE bs 6 1 != Config.gen ||
    getLE bs 0x10 8 != g.tthash.toNat || getLE bs 0x24 4 != 0x02020208 || crc32c (bs.take 0xFC) != getLE bs 0xFC 4 ||
    getLE bs 0x4F 1 != 0 || ((bs.drop 0xB8).take 68).any (· != 0) || ((bs.drop 0x100).take 0xF00).any (· != 0)

/-- Reads the header at SAVE and checks it: its bytes, or the code that refuses the resume. A soft resume goes on with
what the launch keeps, and no header, where there is no readable one. DEDUCED, log entry 42. -/
def State.checkSnapshot (s : State) (l : Launch) : State × Except Nat (List Byte) :=
  match s.readBytes (queueLantern l.queue) l.desc.saveVa 0x1000 with
  | (s1, .error c) => (s1, if l.kept = some .soft then .ok [] else .error c)
  | (s1, .ok bs) => (s1, if snapBad l.img bs then .error 0x0801 else .ok bs)

end Sys2Proof.Machine
end

