-- ==== Sys2Proof/Machine/Restore.lean ====
section
/-! DEFINITION. What a resume reads back from a snapshot (R373 to R376): the header, the tile records and the shadow
block. -/

namespace Sys2Proof.Machine

/-- The scalar registers, loop levels and CDEPTH of a core block; s0, q0 and q1 are constants (R92). -/
def Core.fromBlock (c : Core) (bs : List Byte) : Core :=
  let w (o : Nat) : Word := word (getLE bs o 8)
  let mark (o i : Nat) : Bool := bitOf (getLE bs o 8) i
  let depth := getLE bs 0x300 8
  let level (n : Nat) : LoopLevel :=
    ⟨getLE bs (0x308 + 16 * n + 8) 4, getLE bs (0x308 + 16 * n + 12) 4, getLE bs (0x308 + 16 * n) 8,
      bitOf (getLE bs (0x388 + n) 1) 7, bitsOf (getLE bs (0x388 + n) 1) 0 4⟩
  { c with
    s := Vector.ofFn fun n : Fin 48 => if n = 0 then c.s.get 0 else ⟨w (8 * n.val), mark 0x1D0 n.val, mark 0x1E0 n.val⟩,
    o := Vector.ofFn fun n : Fin 8 => ⟨w (0x180 + 8 * n.val), mark 0x1D8 (16 + n.val), mark 0x1E8 (16 + n.val)⟩,
    l := ⟨w 0x1C0, mark 0x1D8 24, mark 0x1E8 24⟩,
    q := Vector.ofFn fun n : Fin 16 =>
      if n.val < 2 then c.q.get n else ⟨bitOf (getLE bs 0x1C8 2) n.val, mark 0x1D8 n.val, mark 0x1E8 n.val⟩,
    b := Vector.ofFn fun n : Fin 4 => BitVec.ofNat 32 (getLE bs (0x1F0 + 4 * n.val) 4),
    cdepth := bitsOf depth 8 4,
    loops := ((List.range (min (bitsOf depth 0 4) 8)).map level).reverse }

/-- The special registers of a core block. -/
def Tile.specialsFrom (t : Tile) (bs : List Byte) : Tile :=
  let w (i : Nat) : Nat := getLE bs (0x200 + 8 * i) 8
  { t with
    fflags := BitVec.ofNat 6 (w 0), frm := BitVec.ofNat 2 (w 1), bankclr := bitOf (w 2) 0,
    cause := { t.cause with valid := bitOf (w 3) 19, slot := bitsOf (w 3) 16 3, code := bitsOf (w 3) 0 16, faddr := word (w 4), fcyc := w 5 },
    slerr := Vector.ofFn fun n : Fin 4 => bitsOf (w (6 + n.val)) 0 32,
    spceLast := bitsOf (w 10) 32 18, spceCount := bitsOf (w 10) 0 32,
    csceTape := bitOf (w 11) 63, csceLast := bitsOf (w 11) 32 15, csceCount := bitsOf (w 11) 0 32 }

/-- A generator of its four words (R138). -/
def genOf (p c s pos : Nat) : Gen :=
  { bw := BitVec.ofNat 2 (bitsOf p 22 2), base := BitVec.ofNat 22 p, ocnt := BitVec.ofNat 12 (bitsOf c 12 12),
    icnt := BitVec.ofNat 12 c, ostr := BitVec.ofNat 24 (bitsOf s 24 24), istr := BitVec.ofNat 24 s,
    oi := BitVec.ofNat 12 (bitsOf pos 12 12), ii := BitVec.ofNat 12 pos }

/-- The K state of its block; m0 is constant (R145). -/
def Tile.kFrom (t : Tile) (bs : List Byte) : Tile :=
  let w (o : Nat) : Nat := getLE bs o 8
  { t with
    gens := Vector.ofFn fun n : Fin 16 =>
      genOf (w (32 * n.val)) (w (32 * n.val + 8)) (w (32 * n.val + 16)) (w (32 * n.val + 24)),
    handles := Vector.ofFn fun n : Fin 32 =>
      ⟨BitVec.ofNat 256 (getLE bs (0x200 + 32 * n.val) 32), bitOf (getLE bs 0x600 4) n.val⟩,
    scales := Vector.ofFn fun n : Fin 4 =>
      ⟨BitVec.ofNat 2048 (getLE bs (0x604 + 256 * n.val) 256), BitVec.ofNat 32 (getLE bs (0xA04 + 4 * n.val) 4)⟩,
    ym := Vector.ofFn fun n : Fin 4 => BitVec.ofNat 32 (getLE bs (0xA14 + 4 * n.val) 4),
    xm := Vector.ofFn fun n : Fin 4 => BitVec.ofNat 32 (getLE bs (0xA24 + 4 * n.val) 4),
    vm := Vector.ofFn fun n : Fin 8 => if n = 0 then t.vm.get 0 else BitVec.ofNat 64 (w (0xA34 + 8 * n.val)) }

/-- The cells of an accumulator set from i on: its marks, one byte each, and its sums, 72 bytes each. -/
def accCells : (i : Nat) → (marks : List Byte) → (sums : List (List Byte)) → List (Nat × AccCell)
  | i, m :: ms, a :: as =>
    let x : AccCell := ⟨BitVec.ofNat 576 (leNat a), bitOf m.toNat 7, bitsOf m.toNat 0 7⟩
    if x = .reset then accCells (i + 1) ms as else (i, x) :: accCells (i + 1) ms as
  | _, _, _ => []

/-- Set z of the two blocks that describe it. -/
def accSetFrom (z : Fin 2) (marks sums : List Byte) : AccSet :=
  ⟨accCells 0 ((marks.drop (1024 * z.val)).take 1024) (entries 72 1024 (sums.drop (0x12000 * z.val))),
    getLE marks (2048 + 8 * z.val) 8⟩

/-- The marks of words from w on, given by the poison bits of a block. -/
def poisonMarks : (w : Nat) → List Byte → List (Nat × WordMark)
  | _, [] => []
  | w, b :: bs =>
    ((List.range 8).filter fun j => bitOf b.toNat j).map (fun j => (w + j, ⟨true, .clean⟩)) ++ poisonMarks (w + 8) bs

/-! ## Windows, words and results in flight -/

def SlotSt.resumed : Nat → SlotSt
  | 1 => .ready
  | 2 => .ready
  | _ => .empty

/-- A window of its bytes and of the rest of it: nothing is outstanding, and slots that were filled or drained have been
(R248, R339). -/
def windowOf (bs : List Byte) (x : Nat × Nat × Fin 2 × Nat × Nat × List (Nat × Int × Int)) : Window :=
  let w := getLE bs 0 8
  let (done, released, par, slot, iss, dims) := x
  { mode := (match bitsOf w 58 2 with
      | 1 => .copy
      | 2 => .streaming
      | _ => .free),
    cp := Fin.ofNat 2 (bitsOf w 57 1), st := Vector.ofFn fun k => SlotSt.resumed (bitsOf w (53 + 2 * k.val) 2),
    out := bitOf w 52, chk := if bitOf w 48 then some (getLE bs 8 8) else none, chkPar := par, raised := false, done := done,
    released := released, pend := 0, handle := BitVec.ofNat 256 (getLE bs 0x10 32), dims := dims.map fun d => ⟨d.1, d.2.1, d.2.2⟩,
    slot := slot, iss := iss, n := getLE bs 0x30 8, adv := toSigned 64 (getLE bs 0x38 8), s1off := getLE bs 0x40 8 }

/-- The word of a mesh entry. -/
def entryWord (e : List Byte) : MeshWord :=
  ⟨BitVec.ofNat 128 (getLE e 16 16), BitVec.ofNat 8 (getLE e 9 1), bitOf (getLE e 10 1) 0, bitOf (getLE e 10 1) 1⟩

/-- The seam buffer that an entry of lane 7 describes, at the tile's new site. -/
def entrySeam (site : Nat) (e : List Byte) : Seam :=
  let w := getLE e 16 16
  let tag := getLE e 9 1
  ⟨site, tag / 16, tag % 16, bitOf (getLE e 10 1) 0, getLE e 0 8, w % 2 ^ 64, w / 2 ^ 64⟩

/-- The words to arrive that a list of entries gives. -/
def arrivalsOf (site : Nat) : List (List Byte) → List Arrival
  | [] => []
  | e :: es =>
    let rest := arrivalsOf site es
    if getLE e 8 1 ≤ 4 then
      let seam := es.head?.bind fun f => if getLE f 8 1 = 7 then some (entrySeam site f) else none
      ⟨laneOfCode (getLE e 8 1), getLE e 0 8, entryWord e, seam⟩ :: rest
    else rest

/-- The landings of an entry of the in-flight block: the result, and the flags. -/
def entryLandings (seq : Nat) (e : List Byte) : List Landing :=
  let due : Due := ⟨.ref, getLE e 0 8⟩
  let x : Saved := ⟨getLE e 8 2, getLE e 10 1, (e.drop 0x20).take 256, getLE e 0x120 4⟩
  let f := getLE e 0x10 8
  (if x.dest = 0 then [] else [⟨due, seq, x.effect⟩]) ++ if f = 0 then [] else [⟨due, seq, .flags (BitVec.ofNat 6 f)⟩]

/-- The landings of the in-flight block; those of accesses still to come are made by the accesses. -/
def landingsOf (bs : List Byte) (seqs : List (Nat × Bool)) : List Landing :=
  ((entries 320 (min (getLE bs 0 8) (bs.length / 320)) (bs.drop 64)).zip seqs).flatMap fun x => if x.2.2 then [] else entryLandings x.2.1 x.1

/-! ## Paths -/

/-- Reads parts that stand where `layParts` puts them in n bytes. -/
def partAt {α : Type} (n o : Nat) (c : Code α) : Get α := fun bs => c.get.run (bs.drop (o - (n - bs.length)))

/-- The rows of the `hold` beside an `expand`. -/
def heldRows (xs : List MTask) (seq j : Nat) : List PlaneRow :=
  (xs.findSome? fun x => match x.act with
    | .hold k rows => if x.mseq = seq ∧ k = j then some rows else none
    | _ => none).getD []

/-- A pending act with the rows that `lean` left out. -/
def MTask.full (xs : List MTask) (x : MTask) : MTask :=
  match x.act with
  | .expand j _ v => { x with act := .expand j (heldRows xs x.mseq j) v }
  | _ => x

/-- The writes that rows of MUNPK have made which are not visible yet. -/
def Tile.rewrite (t : Tile) : List PWrite :=
  t.mtasks.flatMap fun x => match x.act with
    | .hold j rows =>
      let coming := t.mtasks.any fun y => y.mseq == x.mseq && match y.act with
        | .expand k _ _ => k == j
        | _ => false
      match t.mctx.find? fun c => c.seq == x.mseq with
      | some c => if coming then [] else
          ((c.unpacked j rows).map (·.1)).flatMap (lineWords ⟨.mat, x.due.at_⟩ c.seq c.slot true)
      | none => []
    | _ => []

/-! ## A tile record -/

/-- What a hard record gives: the tile, the clock state of its cluster, the words of its home port and the streams that have
lost one there, its requests, the slot, cycle, phase and poison of its shadow runs, and the slot, cycle and phase of its CATOM
records. -/
structure Resumed where
  tile : Tile
  cluster : Cluster
  port : List MeshWord
  lost : List (BitVec 8)
  syncs : List SyncReq
  runs : List (Nat × Nat × Nat × List Bool)
  catoms : List (Nat × Nat × Nat)
  deriving DecidableEq, Repr

/-- The blocks of a hard record that describe memories and registers. -/
def Tile.blocksFrom (t : Tile) (bs : List Byte) : Tile :=
  let block (o n : Nat) : List Byte := (bs.drop o).take n
  let core := block 0 0x1000
  let t1 := ({ t with core := t.core.fromBlock core }.specialsFrom core).kFrom (block 0x1000 0x2000)
  { t1 with
    acc := Vector.ofFn fun z : Fin 2 => accSetFrom z (block 0x3000 0x1000) (block 0x40000 0x24000),
    routes := Vector.ofFn fun n : Fin 16 => word (getLE (block 0x4000 0x120) (8 * n.val) 8),
    act := Vector.ofFn fun n : Fin 16 => getLE (block 0x4000 0x120) (0x80 + 8 * n.val) 8,
    stag := BitVec.ofNat 8 (getLE (block 0x4000 0x120) 0x100 1), etag := BitVec.ofNat 8 (getLE (block 0x4000 0x120) 0x101 1),
    sp := ⟨cellsFrom 0 (block 0xC0000 Config.spSize), poisonMarks 0 (block 0x38000 0x8000)⟩,
    tape := ⟨cellsFrom 0 (block 0x80000 Config.taperSize), []⟩ }

/-- The engine block: the recorder, the replay engine, the banks, and what has no place of its own. -/
def Tile.engineFrom (t : Tile) (bs : List Byte) : Tile × Cluster :=
  let (rc, rp, k, pf, b1, b2, pc, xf, tg, sq, sl, run, halt, df, loc, v, nsw, stay, lvl) := (codeEngine.get.run bs).1
  ({ t with
      rec_ := rc, rep := rp, pendFid := pf, bank1 := b1, bank2 := b2, run := run, halt := halt, deferred := df,
      cause := { t.cause with loc := loc }, variant := v, nsw := nsw, stay := stay, lastLvl := lvl,
      core := { t.core with pc := pc, xfer := xf, target := tg, seq := sq, sLast := sl } }, k)

/-- A tile with what its hard record gives, and the launch kept beside it, at a schedule cycle of its cluster (R374, R375). -/
def Tile.fromRecord (new : Tile) (scy : Nat) (bs : List Byte) (spill : List (List Byte)) : Resumed :=
  let block (o n : Nat) : List Byte := (bs.drop o).take n
  let whole (o n j : Nat) : List Byte := block o n ++ spill.getD j []
  let paths := whole 0x18000 0x20000 2
  let (t, k) := (new.blocksFrom bs).engineFrom (whole 0x7000 0x1000 0)
  let at_ {α : Type} (o : Nat) (c : Code α) : Get α := partAt paths.length o c
  let ((u0, u1, p0, p1, p2, rest), _) := Id.run <| StateT.run (do
    let u0 ← at_ 0 codeUnit
    let u1 ← at_ 0x2000 codeUnit
    let p0 ← at_ 0x4000 codePath
    let p1 ← at_ 0x8000 codePath
    let p2 ← at_ 0x1C000 codePath
    let rest ← codeOthers.get
    return (u0, u1, p0, p1, p2, rest)) paths
  let (accs, wbuf, seqs, wins, syncs, residues, runs, catoms, more, lost) := rest
  let es := (entries 32 meshRoom (block 0x4120 (32 * meshRoom))).filter (fun e => e.any (· != 0)) ++ entries 32 (more.length / 32) more
  let lane (n : Nat) : List MeshWord := (es.filter fun e => getLE e 8 1 == n).map entryWord
  let tasks := p0.2.2 ++ p1.2.2 ++ p2.2.2
  let t1 : Tile := { t with
    core := { t.core with lands := landingsOf (whole 0x8000 0x10000 1) seqs },
    accs := u0.2 ++ u1.2 ++ accs, vbusy := #v[u0.1, u1.1], mbusy := #v[p0.1, p1.1, p2.1], mctx := p0.2.1 ++ p1.2.1 ++ p2.2.1,
    mtasks := tasks.map (MTask.full tasks), residues := residues, rq := lane 5, arrivals := arrivalsOf new.site es,
    wins := Vector.ofFn fun n : Fin 16 => windowOf (block (0x5000 + 256 * n.val) 256) (wins.getD n.val Window.reset.rest) }
  ⟨{ t1 with wbuf := wbuf ++ t1.rewrite }.reread scy, k, lane 6, lost, syncs, runs, catoms⟩

/-! ## The shadow block (R376) -/

/-- The shadow runs of a block by POSN, up to the head of zeros, and the bytes after it. -/
def shadowRuns (phase : Nat) : (fuel : Nat) → List Byte → List (Nat × ShadowRun) × List Byte
  | 0, bs => ([], bs)
  | fuel + 1, bs =>
    let n := min (getLE bs 8 4) bs.length
    if n = 0 then ([], bs.drop 16)
    else
      let data := (bs.drop 16).take n
      let marks := (bs.drop (16 + (n + 15) / 16 * 16)).take ((n + 7) / 8)
      let r := shadowRuns phase fuel (bs.drop (16 + (n + 15) / 16 * 16 + (n + 7) / 8))
      ((getLE bs 12 4, ⟨phase, 0, 0, 0, getLE bs 0 8, data, (List.range n).map fun j => (marks.getD (j / 8) 0) != 0⟩) :: r.1, r.2)

/-- The CATOM records of a block by POSN. -/
def catomRecs (phase : Nat) (bs : List Byte) : List (Nat × CatomRec) :=
  (entries 32 (bs.length / 32) bs).map fun e =>
    (getLE e 16 4, ⟨phase, getLE e 24 8, 0, 0, getLE e 0 8, (codeAtom.get.run (e.drop 20)).1, word (getLE e 8 8)⟩)

/-- The shadows of a resumed tile. -/
def Resumed.withShadows (x : Resumed) (runs : List (Nat × ShadowRun)) (catoms : List (Nat × CatomRec)) : Resumed :=
  let mine {α : Type} (xs : List (Nat × α)) : List α := (xs.filter fun y => y.1 == x.tile.posn).map (·.2)
  { x with tile := { x.tile with
      shadow := (mine runs).zipIdx.map fun r => match x.runs[r.2]? with
        | some (slot, iss, phase, poison) => { r.1 with slot := slot, iss := iss, phase := phase, poison := poison }
        | none => r.1,
      catoms := (mine catoms).zipIdx.map fun c => match x.catoms[c.2]? with
        | some (slot, iss, phase) => { c.1 with slot := slot, iss := iss, phase := phase }
        | none => c.1 } }

/-! ## The snapshot at SAVE -/

/-- A snapshot as read: its header, its tile records in POSN order and its shadow block. -/
structure Snapshot where
  head : List Byte
  records : List (List Byte)
  shadow : List Byte
  deriving DecidableEq, Repr

def Snapshot.scy (x : Snapshot) : Nat := getLE x.head 0x28 8
def Snapshot.phase (x : Snapshot) : Nat := getLE x.head 0x40 8
def Snapshot.bound (x : Snapshot) : Nat := getLE x.head 0x48 4
/-- The SCY of cluster k (R28). -/
def Snapshot.scyOf (x : Snapshot) (k : Nat) : Nat := (x.scy + toSigned 8 (getLE x.head (0x68 + k) 1)).toNat

/-- Whether one of n bytes from o on is not zero. -/
def anySet (bs : List Byte) (o n : Nat) : Bool := ((bs.drop o).take n).any (· != 0)

/-- Whether a tile record holds a non-zero byte where R373, R374 or R375 has zero; one that could not be read holds none
(R376). -/
def recordBad (hard : Bool) (bs : List Byte) : Bool :=
  if hard then
    anySet bs 0x260 0xA0 || anySet bs 0x390 0xC70 || anySet bs 0x64000 0x1C000 ||
      (entries 32 meshRoom (bs.drop 0x4120)).any (fun e => anySet e 11 5) ||
      (entries 320 (min (getLE bs 0x8000 8) 204) (bs.drop 0x8040)).any fun e => anySet e 11 5 || anySet e 0x18 8 || anySet e 0x124 28
  else anySet bs 0 0x230 || anySet bs 0x250 0x7FDB0 || anySet bs 0xC0000 Config.spSize

/-- Whether a CATOM record of a shadow block does (R376). -/
def catomBad (sh : List Byte) : Bool :=
  let bs := (shadowRuns 0 sh.length sh).2
  (entries 32 (bs.length / 32) bs).any fun e => anySet e 21 3

/-- The record of n bytes at each of some addresses; a soft resume goes on where one cannot be read. -/
def State.readRecords (s : State) (l : Launch) (hard : Bool) : (posns : List Nat) → State × Except Nat (List (List Byte))
  | [] => (s, .ok [])
  | p :: ps =>
    match s.readBytes (queueLantern l.queue) (l.desc.saveVa + 0x1000 + 0x2C0000 * p) 0x2C0000 with
    | (s1, .error c) =>
      if hard then (s1, .error c)
      else match s1.readRecords l hard ps with
        | (s2, .error c) => (s2, .error c)
        | (s2, .ok rest) => (s2, .ok ([] :: rest))
    | (s1, .ok bs) =>
      match s1.readRecords l hard ps with
      | (s2, .error c) => (s2, .error c)
      | (s2, .ok rest) => (s2, .ok (bs :: rest))

/-- The shadow block of a hard snapshot. -/
def State.readShadow (s : State) (l : Launch) (hard : Bool) (head : List Byte) : State × Except Nat (List Byte) :=
  if hard then s.readBytes (queueLantern l.queue) (l.desc.saveVa + getLE head 0x58 8) (getLE head 0x60 8) else (s, .ok [])

/-- The snapshot at SAVE, for tiles of some POSNs, or the code that refuses the resume (R376). -/
def State.readSnapshot (s : State) (l : Launch) (posns : List Nat) : State × Except Nat Snapshot :=
  let hard : Bool := l.kept == some .hard
  match s.checkSnapshot l with
  | (s1, .error c) => (s1, .error c)
  | (s1, .ok head) =>
    match s1.readRecords l hard posns with
    | (s2, .error c) => (s2, .error c)
    | (s2, .ok rs) =>
      match s2.readShadow l hard head with
      | (s3, .error c) => (s3, .error c)
      | (s3, .ok sh) => (s3, if rs.any (recordBad hard) || catomBad sh then .error 0x0801 else .ok ⟨head, rs, sh⟩)

end Sys2Proof.Machine
end

