-- ==== Sys2Proof/Machine/Load.lean ====
section
/-! DEFINITION. Loading a launch and starting its region (R24, R192, R267, R277, R297, R343, R368, R376): tapes, resumed
tiles, the wall-cycle start. -/

namespace Sys2Proof.Machine

/-! ## Tapes from a tape set (R277) -/

/-- The tapes of a slot, each as its header and record bytes, as far as they fit. A header of zeros, as a launch that
records nothing leaves it (R283), is no tape. DEDUCED, log entry 66. -/
def splitTapes : (fuel : Nat) → List Byte → List (List Byte)
  | 0, _ => []
  | fuel + 1, bs =>
    let n := 64 + 8 * getLE bs 0x18 4
    if bs.length < 64 ∨ bs.length < n ∨ (bs.take 64).all (· == 0) then []
    else bs.take n :: splitTapes fuel (bs.drop ((n + 63) / 64 * 64))

/-- The prologue of the record words: the PATCH values, the GUARDs, and the number of words (R270). -/
def prologueOf : (fuel : Nat) → List Nat → List (Nat × Nat) × List (Nat × Nat) × Nat
  | 0, _ => ([], [], 0)
  | fuel + 1, ws =>
    match ws with
    | w :: a :: b :: rest =>
      if w / 2 ^ 60 = 3 ∧ bitsOf w 4 56 = 0 ∧ a = recHead 2 0 then
        let (ps, gs, n) := prologueOf fuel rest
        ((w % 16, b) :: ps, gs, n + 3)
      else if w / 2 ^ 60 = 5 ∧ w % 2 ^ 48 = 0 then
        let (ps, gs, n) := prologueOf fuel (b :: rest)
        (ps, (bitsOf w 48 12, a) :: gs, n + 2)
      else ([], [], 0)
    | [w, a] => if w / 2 ^ 60 = 5 ∧ w % 2 ^ 48 = 0 then ([], [(bitsOf w 48 12, a)], 2) else ([], [], 0)
    | _ => ([], [], 0)

/-- The record words of a tape. -/
def tapeWords (t : List Byte) : List Nat := (entries 8 ((t.length - 64) / 8) (t.drop 64)).map leNat

/-- Check 1: the CRC (R269). -/
def tapeCrcOk (t : List Byte) : Bool := crc32c (t.take 0x3C ++ t.drop 64) == getLE t 0x3C 4

/-- Check 2 but for the variant; a reserved field that is not zero fails it (R7). -/
def tapeIdOk (t : List Byte) (g : Image) (fid posn : Nat) : Bool :=
  getLE t 0 4 == 0x4B575433 && getLE t 4 2 == 1 && getLE t 6 1 == 3 && getLE t 8 8 == g.tthash.toNat && getLE t 0x14 4 == g.mapclass &&
    getLE t 0x10 1 == fid && bitOf (getLE t 0x11 1) 0 && bitOf (getLE t 0x11 1) 2 && getLE t 0x1C 4 == posn &&
    getLE t 0x11 1 / 8 == 0 && getLE t 0x2C 4 == 0 && getLE t 0x38 4 == 0

/-- Check 3: the guards. -/
def tapeGuardsOk (t : List Byte) (args : List Word) : Bool :=
  (prologueOf t.length (tapeWords t)).2.1.all fun x => (args.getD x.1 0).toNat == x.2

/-- Lays tapes one after another from 64-byte boundaries. -/
def layTapes (ts : List (List Byte)) : List Byte :=
  ts.foldl (fun acc t => acc ++ List.replicate ((64 - acc.length % 64) % 64) 0 ++ t) []

/-- The word at which the first tape of a list that satisfies a test begins, once laid. -/
def tapeBase (p : List Byte → Bool) : (at_ : Nat) → List (List Byte) → Option (Nat × List Byte)
  | _, [] => none
  | k, t :: ts => if p t then some (k, t) else tapeBase p (k + (t.length + 63) / 64 * 8) ts

/-- The patch deltas: the launch's patch table against the recorded values (R277). -/
def patchDeltas (g : Image) (args : List Word) (ps : List (Nat × Nat)) : List (Nat × Word) :=
  ps.filterMap fun x => (g.patches.find? fun p => p.1 == x.1).map fun p => (x.1, args.getD p.2 0 - word x.2)

/-- Loads the slot of one tile and checks the tape of the entry variant: the tile, or the code of the first failure. -/
def Tile.loadTapes (t : Tile) (l : Launch) (fid : Nat) (slot : List Byte) : Except Nat Tile :=
  let ts := splitTapes 4096 slot
  let mine (x : List Byte) : Bool := getLE x 7 1 == t.variant
  match ts.find? mine with
  | none => .error 0x0701
  | some x =>
    if !tapeCrcOk x then .error 0x0704
    else if !tapeIdOk x l.img fid t.posn then .error 0x0701
    else if !tapeGuardsOk x l.args then .error 0x0701
    else
      let kept := ts.filter fun y => mine y || (tapeCrcOk y && tapeIdOk y l.img fid t.posn)
      match tapeBase mine 0 kept with
      | none => .error 0x0701
      | some (k, x) =>
        let p := prologueOf x.length (tapeWords x)
        .ok { t with tape := ⟨cellsFrom 0 (layTapes kept), []⟩,
                     rep := { Replayer.reset with ready := true, base := k, pos := k + 8 + p.2.2,
                                                  pd := patchDeltas l.img l.args p.1 } }

/-- The slots of a tape set; the first that does not translate or may not be read ends it with a code.
DEDUCED, log entry 66. -/
def State.readSlots (s : State) (l : Launch) : (posns : List Nat) → State × Except Nat (List (List Byte))
  | [] => (s, .ok [])
  | p :: ps =>
    match s.readBytes (queueLantern l.queue) (l.tapeVa + p * 0x40000) 0x40000 with
    | (s1, .error c) => (s1, .error (if c = 0x0306 then 0x0704 else 0x0701))
    | (s1, .ok bs) =>
      match s1.readSlots l ps with
      | (s2, .error c) => (s2, .error c)
      | (s2, .ok rest) => (s2, .ok (bs :: rest))

/-- The tiles with their tapes, or the tape code with which the launch runs by fetch. -/
def loadAll (l : Launch) (fid : Tile → Nat) : List Tile → List (List Byte) → Except Nat (List Tile)
  | t :: ts, b :: bs =>
    match t.loadTapes l (fid t) b with
    | .error c => .error c
    | .ok t1 =>
      match loadAll l fid ts bs with
      | .error c => .error c
      | .ok rest => .ok (t1 :: rest)
  | ts, _ => .ok ts

/-- TAPE_CHECK: loads and checks the tape set of a launch with the replay flag (R277). -/
def State.loadTapeSet (s : State) (l : Launch) (ts : List Tile) : State × List Tile × Nat :=
  if !l.replay then (s, ts, 0)
  else if l.tapeVa = 0 then (s, ts, 0x0701)
  else
    match s.readSlots l (ts.map (·.posn)) with
    | (s1, .error c) => (s1, ts, c)
    | (s1, .ok slots) =>
      match loadAll l (fun t => (s1.cluster t).fid) ts slots with
      | .error c => (s1, ts, c)
      | .ok ts1 => (s1, ts1, 0)

/-! ## Resumed tiles (R297, R368, R376) -/

/-- A tile that re-enters an interval: as at launch, with its SLERR restored, its Taper memory kept, and a tape that it
was recording invalidated with 0x000D (R368). -/
def Tile.reenter (new old : Tile) (slerr : Vector Nat 4) (scy : Nat) : Tile :=
  let r := { old.rec_ with span := old.rec_.open_ }
  let t := { new with slerr := slerr, spceCount := old.spceCount, spceLast := old.spceLast, csceCount := old.csceCount,
                      csceLast := old.csceLast, csceTape := old.csceTape, tape := old.tape, rec_ := r }
  if r.recBit then t.invalidateTape 0x000D scy 0 else t

/-- The cluster of a hard resume: its own SCY, clocks and variant, at its new site (R28, R373). -/
def State.resumeCluster (s : State) (new old : Cluster) (scy : Nat) : Cluster :=
  { old with site := new.site, ox := new.ox, oy := new.oy, scy := scy, grant := new.grant, grants := [],
             fid := s.fidAt new.site old.fid }

/-- Replaces the tiles of a region by others of the same number, in order. -/
def replaceTiles (region : Nat) : List Tile → List Tile → List Tile
  | [], _ => []
  | t :: ts, new =>
    if t.region = region then
      match new with
      | n :: ns => n :: replaceTiles region ts ns
      | [] => t :: replaceTiles region ts []
    else t :: replaceTiles region ts new

def State.setTilesOf (s : State) (region : Nat) (ts : List Tile) : State := { s with tiles := replaceTiles region s.tiles ts }

/-- The buffer of a port with words and lost streams before what it has received since: a word for which it has no room is
lost to its stream (R265). -/
def Port.refill (x : Port) (ws : List MeshWord) (lost : List (BitVec 8)) : Port :=
  let all := ws ++ x.buffer
  { x with buffer := all.take 256, fresh := x.fresh - (all.length - 256),
           lost := (lost ++ x.lost ++ (all.drop 256).map (·.tag)).eraseDups }

/-- Words of a port buffer that came with tile t stand in the buffer of its home port again, and so do the marks of the
streams that have lost one (R265, R374). -/
def State.refillPort (s : State) (t : Tile) (ws : List MeshWord) (lost : List (BitVec 8)) : State :=
  match s.portOf t with
  | some p => s.modPort p fun x => x.refill ws lost
  | none => s

/-- The window map of a record, of which the launch's image says how many entries it has (R330, R374). -/
def recordPages (g : Image) (rec_ : List Byte) : List Page :=
  ((cutBytes 16 ((rec_.drop 0x6000).take (16 * g.pages.length))).bind (parseAll parsePage)).getD g.pages

/-- The tiles of a region that a hard snapshot gives, with what else its records hold and what was kept beside them. -/
def Snapshot.resumed (x : Snapshot) (ts : List Tile) (spill : List (List (List Byte))) : List Resumed :=
  let sh := shadowRuns x.phase x.shadow.length x.shadow
  let cs := catomRecs x.phase sh.2
  (ts.zip x.records).zipIdx.map fun p =>
    (p.1.1.fromRecord (x.scyOf p.1.1.cluster) p.1.2 (spill.getD p.2 [])).withShadows sh.1 cs

/-- Puts back what a hard snapshot holds (R376); the sample registers of the sites come from the launch. -/
def State.restoreHard (s : State) (l : Launch) (r : Region) (x : Snapshot) : State :=
  let rs := x.resumed (s.tilesOf r.id) l.keptSpill
  let of_ (k : Nat) : Cluster := ((rs.find? fun y => y.tile.cluster == k).map (·.cluster)).getD .none
  let s1 := (s.setTilesOf r.id (rs.map (·.tile))).modRegion r.id fun r =>
    { r with clusters := r.clusters.zipIdx.map fun c => (s.resumeCluster c.1 (of_ c.2) (x.scyOf c.2)).retarget l.img,
             bphase := x.phase, boundary := { r.boundary with num := x.bound } }
  let s2 := rs.foldl (fun s y => s.refillPort y.tile y.port y.lost) s1
  let own := (s2.tiles.zipIdx.filter fun t => t.1.region == r.id).map (·.2)
  let s3 : State := { s2 with
    syncs := s2.syncs ++ (own.zip rs).flatMap fun y => y.2.syncs.map fun q => { q with tile := y.1 },
    lamps := (r.rect.sites.zip l.keptLamps).foldl (fun v x => v.set (Fin.ofNat 80 x.1) x.2) s2.lamps }
  s3.modLaunch l.id fun l => { l with img := { l.img with pages := recordPages l.img (x.records.headD []) } }

/-- A saved tile with the SLERR counters and the Taper memory of its soft record, if there is one (R373). -/
def Tile.softRecord (t : Tile) (bs : List Byte) : Tile :=
  if bs.isEmpty then t
  else
    { t with slerr := Vector.ofFn fun n : Fin 4 => getLE bs (0x230 + 8 * n.val) 4,
             tape := ⟨cellsFrom 0 ((bs.drop 0x80000).take Config.taperSize), []⟩ }

/-- The tiles of a soft resume, which enters the boundary that the header names (R368). -/
def State.restoreSoft (s : State) (l : Launch) (r : Region) (x : Snapshot) : State :=
  let ts := (s.tilesOf r.id).zipIdx.map fun y =>
    match l.keptTiles[y.2]? with
    | some o =>
      let bs := x.records.getD y.2 []
      let slerr := if bs.isEmpty then r.boundary.slerr.getD y.2 (Vector.replicate 4 0) else (o.softRecord bs).slerr
      y.1.reenter (o.softRecord bs) slerr r.boundary.scy
    | none => y.1
  (s.setTilesOf r.id ts).modRegion r.id fun r =>
    if x.head.isEmpty then r else { r with boundary := { r.boundary with num := x.bound } }

/-! ## Start (R24, R64, R343, R368) -/

/-- The re-entry of a boundary in a variant: its address and SCYR; boundary 0 is the launch's start (R364). -/
def Image.reentry (g : Image) (b variant : Nat) : Nat × Nat :=
  if b = 0 then ((g.switches.getD 0 ⟨0, 0, 0⟩).at_ variant, 0)
  else match g.replays[b - 1]? with
    | some (a, scyr) => (a.at_ variant, scyr)
    | none => (0, 0)

/-- Enters a boundary on every tile of a region in the present reference cycle, at the image's fidelity level as at launch
(R106, R183, R368). -/
def State.enter (s : State) (region : Nat) (g : Image) : State :=
  match s.region? region with
  | none => s
  | some r =>
    let at_ (c : Cluster) : Nat × Nat := g.reentry r.boundary.num (g.variantOf c.grant)
    let s1 := s.modRegion region fun r =>
      { r with phase := .running, endAt := none, clusters := r.clusters.map fun c =>
          let v := g.variantOf c.grant
          { c with scy := (at_ c).2, hold := 0, held := 0, slip := 0, variant := v, fid := s.fidAt c.site g.fidelity,
                   clk := { Clock.reset with div := g.divsOf v, org := (at_ c).2 } } }
    { s1 with tiles := s1.tiles.map fun t =>
        if t.region = region then
          let c := r.clusters.getD t.cluster .none
          { t with run := .running, variant := g.variantOf c.grant, core := { t.core with pc := (at_ c).1 } }
        else t }

/-- REGION_START (R24): every tile begins in one reference cycle; a hard resume goes on where it stood, after
HALT if that had issued (R372). -/
def State.startRegion (s : State) (region : Nat) : State :=
  match s.region? region with
  | none => s
  | some r =>
    match s.launch? r.launch with
    | none => s
    | some l =>
      if r.phase ≠ .loaded then s
      else
        let s1 := if l.kept = some .hard then
            s.modRegion region fun r => { r with phase := (r.endAt.map RegionPhase.ending).getD .running }
          else s.enter region l.img
        s1.modLaunch l.id fun l => { l with kept := none, keptRegion := none, keptTiles := [], keptSpill := [], keptLamps := [] }

def execRegionStart (r : Nat) (s : State) : Host.Outcome State Fault Refusal := .next (s.startRegion r)

/-- WAITW_RELEASE (R343): at WCY = Wt every tile of an armed region begins at t = 0. -/
def State.releaseWaitw (s : State) (region : Nat) : State :=
  match s.region? region with
  | none => s
  | some r =>
    match r.phase, s.imageOf region with
    | .armed wt, some g => if wt ≤ s.wcy ∧ r.haltReq = none then s.enter region g else s
    | _, _ => s

def execWaitwRelease (r : Nat) (s : State) : Host.Outcome State Fault Refusal := .next (s.releaseWaitw r)

/-- Arms a region for WAITW; one loaded later than Wt - 96 records 0x0202 on every tile and halts (R343). -/
def State.arm (s : State) (region wt : Nat) : State :=
  let s1 := s.modRegion region fun r => { r with phase := .armed wt }
  if s.wcy + Config.treeLatency ≤ wt then s1
  else
    (List.range s1.tiles.length).foldl (fun s i =>
      match s.tile? i with
      | some t => if t.region = region then s.faultTile i 0x0202 (word wt) 0 0 else s
      | none => s) s1

/-- LAUNCH_LOAD (R192, R277): the tiles of a placed launch are loaded. -/
def State.load (s : State) (id : Nat) : State :=
  match s.launch? id, s.regionOfLaunch id with
  | some l, some r =>
    match r.phase with
    | .loading u =>
      if s.wcy < u then s
      else
        match l.kept with
        | some k =>
          match s.readSnapshot l ((s.tilesOf r.id).map (·.posn)) with
          | (s1, .error c) => s1.endLaunch id c 2 ((l.keptRegion.map (·.scy)).getD 0)
          | (s1, .ok x) =>
            (if k = .hard then s1.restoreHard l r x else s1.restoreSoft l r x).modRegion r.id fun r => { r with phase := .loaded }
        | none =>
          let (s1, ts, code) := s.loadTapeSet l (s.tilesOf r.id)
          let s2 := (s1.setTilesOf r.id ts).modLaunch id fun l => { l with tapeCode := code }
          match firstWaitw l.img.code l.img.entry with
          | some j => s2.arm r.id (l.args.getD j 0).toNat
          | none => s2.modRegion r.id fun r => { r with phase := .loaded }
    | _ => s
  | _, _ => s

def execLaunchLoad (id : Nat) (s : State) : Host.Outcome State Fault Refusal := .next (s.load id)

end Sys2Proof.Machine
end

