-- ==== Sys2Proof/Machine/Publish.lean ====
section
/-! DEFINITION. Publishing a phase (R235 to R239, R246, R247, R255 to R258, R363, R365): closing it, suppression by poison, the
merge of the shadows and CATOM records, the witness tree and log (R379, R380), propagation, and a completed boundary. -/

namespace Sys2Proof.Machine

/-! ## The tiles of a region in GLT order -/

/-- The places of the tiles of a region in the list of tiles. -/
def State.indices (s : State) (region : Nat) : List Nat :=
  (List.range s.tiles.length).filter fun i => (s.tiles[i]?).any fun t => t.region == region

/-- Inserts a tile by ascending global live tile number. -/
def insertGlt (x : Nat × Tile) : List (Nat × Tile) → List (Nat × Tile)
  | [] => [x]
  | y :: ys => if x.2.glt < y.2.glt then x :: y :: ys else y :: insertGlt x ys

/-- The tiles of a region with their places, by ascending global live tile number. -/
def State.byGlt (s : State) (region : Nat) : List (Nat × Tile) :=
  ((s.indices region).filterMap fun i => (s.tile? i).map fun t => (i, t)).foldr insertGlt []

/-! ## Poison (R239, R363) -/

/-- The lowest poisoned VA of a tile's shadow of a phase. -/
def Tile.poisonVa (t : Tile) (n : Nat) : Option Nat :=
  let rs := t.shadowOf n
  let vas := rs.flatMap fun r =>
    (List.range r.data.length).filterMap fun j => if shadowPoison rs ((r.va + j) / 8) then some (r.va + j) else none
  vas.foldl (fun m v => match m with
    | none => some v
    | some w => some (min v w)) none

/-- The lowest poisoned VA of a phase, with the tile of lowest global live tile number that holds it. -/
def State.poisonIn (s : State) (region n : Nat) : Option (Nat × Nat) :=
  (s.byGlt region).foldl (fun best x =>
    match x.2.poisonVa n, best with
    | none, b => b
    | some v, none => some (x.1, v)
    | some v, some (i, w) => if v < w then some (x.1, v) else some (i, w)) none

/-- Whether a boundary or completion publish of a phase is suppressed. -/
def State.suppresses (s : State) (region n : Nat) : Bool :=
  (s.region? region).any (·.poison) || (s.poisonIn region n).isSome

/-- Changes every tile of a region. -/
def State.modTiles (s : State) (region : Nat) (f : Tile → Tile) : State :=
  { s with tiles := s.tiles.map fun t => if t.region = region then f t else t }

/-- The publish of phase n is suppressed (R239, R363): its shadows stay unpublished until the retry discards them (R368),
the halt is requested, and 0x0308 is recorded where no tile has recorded a deferred fault in the interval. -/
def State.suppress (s : State) (region n : Nat) : State :=
  let s1 :=
    if (s.indices region).any fun i => (s.tile? i).any fun t => t.deferred.valid then s
    else
      match s.poisonIn region n with
      | none => s
      | some (i, va) =>
        match s.tile? i with
        | none => s
        | some t => s.deferFault i 0x0308 (word va) 0 (s.cluster t).scy
  (s1.modRegion region fun r =>
    { r with suppressed := true, publishes := r.publishes.filter fun p => p.phase < n }).requestHalt region

/-! ## The merge (R237, R247) -/

/-- A byte of the new version with its poison mark. -/
abbrev Cell := Byte × Bool

/-- Sets a VA in a list of cells sorted by VA. -/
def putCell (a : Nat) (c : Cell) : List (Nat × Cell) → List (Nat × Cell)
  | [] => [(a, c)]
  | (b, d) :: rest =>
    if a < b then (a, c) :: (b, d) :: rest
    else if a = b then (a, c) :: rest
    else (b, d) :: putCell a c rest

/-- Lays a run of a shadow over the cells. -/
def ShadowRun.over (r : ShadowRun) (rs : List ShadowRun) (cells : List (Nat × Cell)) : List (Nat × Cell) :=
  (List.range r.data.length).foldl (fun acc j => putCell (r.va + j) (r.data.getD j 0, shadowPoison rs ((r.va + j) / 8)) acc) cells

/-- The bytes of the new version that a phase wrote: at each VA the byte of the highest writer (R237). -/
def State.written (s : State) (region n : Nat) : List (Nat × Cell) :=
  (s.byGlt region).foldl (fun acc x =>
    (x.2.shadowOf n).foldl (fun acc r => r.over (x.2.shadowOf n) acc) acc) []

/-- The maximal runs of consecutive VAs. -/
def cellRuns : List (Nat × Cell) → List (Nat × List Cell)
  | [] => []
  | (a, c) :: rest =>
    match cellRuns rest with
    | (b, cs) :: more => if b = a + 1 then (a, c :: cs) :: more else (a, [c]) :: (b, cs) :: more
    | [] => [(a, [c])]

/-- Writes one run at its frames; a replicated page takes it in every copy (R238). -/
def State.writeRun (s : State) (pages : List Page) (va : Nat) (cells : List Cell) : State :=
  ((splitPages pages (pages.length + 1) va cells.length).foldl (fun (acc : State × List Cell) x =>
    let part := acc.2.take x.2.2
    (acc.1.writePlace (x.1.place x.2.1) (part.map (·.1)) (part.map (·.2)), acc.2.drop x.2.2)) (s, cells)).1

/-- Inserts a CATOM record by its issue order. -/
def insertCatom (x : CatomRec) : List CatomRec → List CatomRec
  | [] => [x]
  | y :: ys => if x.ord < y.ord then x :: y :: ys else y :: insertCatom x ys

/-- The CATOM records of a phase, each with its tile, in the order of R247: by tile, then by issue. -/
def State.catomsOf (s : State) (region n : Nat) : List (Nat × CatomRec) :=
  (s.byGlt region).flatMap fun x => ((x.2.catoms.filter fun c => c.phase == n).foldr insertCatom []).map fun c => (x.1, c)

/-- Applies a CATOM record; a word that it finds uncorrectable is recorded at its tile (R242, R247, R363). -/
def State.applyCatom (s : State) (pages : List Page) (i : Nat) (c : CatomRec) : State :=
  match pageOf pages c.va with
  | none => s
  | some p =>
    let (host, a) := (p.place c.va).phys 0
    let m := if host then s.host else s.dram
    let s1 := match m.uncorrectables a 8 with
      | [] => s
      | w :: _ => s.deferBulk i c.slot c.iss p c.va a w
    (s1.atomPlace (p.place c.va) c.op c.operand 0 false).1

/-- The memories and addresses of the copies of a place. -/
def Place.copies (p : Place) : List (Bool × Nat) :=
  if p.kind = 1 then (List.range 80).map p.phys else [p.phys 0]

/-- The uncorrectable words that a merged run covers only in part: page, VA and address of its piece, and word. -/
def State.partBad (s : State) (pages : List Page) (va n : Nat) : List (Page × Nat × Nat × Nat) :=
  (splitPages pages (pages.length + 1) va n).flatMap fun x =>
    (x.1.place x.2.1).copies.flatMap fun c =>
      let m := if c.1 then s.host else s.dram
      ((partWords c.2 x.2.2).filter fun w => (m.mark w).err == .uncorrectable).map fun w => (x.1, x.2.1, c.2, w)

/-- Such a word is recorded at every tile of a region with a run of phase n in it (R363). -/
def State.deferPart (s : State) (region n : Nat) (x : Page × Nat × Nat × Nat) : State :=
  let va := x.2.1 + 8 * x.2.2.2 - x.2.2.1
  (s.byGlt region).foldl (fun s t =>
    match t.2.shadow.find? fun r => r.phase == n && r.va < va + 8 && va < r.va + r.data.length with
    | some r => s.deferBulk t.1 r.slot r.iss x.1 x.2.1 x.2.2.1 x.2.2.2
    | none => s) s

/-- Whether the byte at a VA stands poisoned in some copy. -/
def State.vaPoisoned (s : State) (pages : List Page) (va : Nat) : Bool :=
  (pageOf pages va).any fun p => (p.place va).copies.any fun c => (if c.1 then s.host else s.dram).bytePoison c.2

/-! ## Witness tree and log (R379, R380) -/

def insertPage (p : Page) : List Page → List Page
  | [] => [p]
  | q :: qs => if p.va < q.va then p :: q :: qs else q :: insertPage p qs

/-- Pages with the number of the first piece of each. -/
def numberPages : (first : Nat) → List Page → List (Page × Nat)
  | _, [] => []
  | k, p :: ps => (p, k) :: numberPages (k + p.size / 65536) ps

/-- The WT pages by ascending VA, numbered. -/
def witnessPages (pages : List Page) : List (Page × Nat) := numberPages 0 ((pages.filter (·.wt)).foldr insertPage [])

/-- The piece of a VA, if it lies in a WT page. -/
def pieceAt (ps : List (Page × Nat)) (va : Nat) : Option Nat :=
  (ps.find? fun x => x.1.va ≤ va && va < x.1.va + x.1.size).map fun x => x.2 + (va - x.1.va) / 65536

/-- leaf(i): the digest of the piece's bytes and its number. -/
def State.leaf (s : State) (ps : List (Page × Nat)) (i : Nat) : State × BitVec 384 :=
  match ps.find? fun x => x.2 ≤ i && i < x.2 + x.1.size / 65536 with
  | none => (s, 0)
  | some (p, k) =>
    let (s1, bs, _) := s.readPlace (p.place (p.va + (i - k) * 65536)) 0 65536
    (s1, sha384Bits (bs ++ leBytes 8 i))

def digestBytes (d : BitVec 384) : List Byte := beBytes 48 d.toNat

/-- The parents of a full row of nodes; an absent child is 48 zero bytes. -/
def parentsOf (ds : List (BitVec 384)) : List (BitVec 384) :=
  (List.range ((ds.length + 15) / 16)).map fun j =>
    sha384Bits ((List.range 16).flatMap fun k => digestBytes (ds.getD (16 * j + k) 0))

/-- The nodes of a tree whose row at a level is given, by level and index. -/
def treeOf : (level : Nat) → List (BitVec 384) → List (Nat × Nat × BitVec 384)
  | 0, ds => ds.zipIdx.map fun x => (0, x.2, x.1)
  | l + 1, ds => (ds.zipIdx.map fun x => (l + 1, x.2, x.1)) ++ treeOf l (parentsOf ds)

/-- D: the least value of at least 1 with 16^D ≥ NP. -/
def treeDepth (np : Nat) : Nat := if np ≤ 16 then 1 else if np ≤ 256 then 2 else if np ≤ 4096 then 3 else 4

/-- A node of the retained tree; one that is absent is 48 zero bytes. -/
def Witness.node (w : Witness) (level idx : Nat) : BitVec 384 :=
  ((w.nodes.find? fun x => x.1 == level && x.2.1 == idx).map (·.2.2)).getD 0

/-- The leaves after a publish that changed some pieces: the rest are kept from the tree of the same launch. -/
def State.leaves (s : State) (launch np : Nat) (ps : List (Page × Nat)) (changed : List Nat) : State × List (BitVec 384) :=
  let w := s.mod_.witness
  let keep : Bool := w.launch == some launch
  (List.range np).foldl (fun (acc : State × List (BitVec 384)) i =>
    if keep && !changed.contains i then (acc.1, acc.2 ++ [w.node (treeDepth np) i])
    else
      let (s1, d) := acc.1.leaf ps i
      (s1, acc.2 ++ [d])) (s, [])

/-- Rehashes the changed pieces of a launch and appends a record to the log; nothing happens where no WT piece changed.
DEDUCED, log entry 71. -/
def State.witness (s : State) (launch : Nat) (g : Image) (phase : Nat) (poisoned : Bool) (vas : List Nat) : State :=
  let ps := witnessPages g.pages
  let changed := vas.filterMap (pieceAt ps)
  if changed.isEmpty then s
  else
    let np := g.pieces
    let (s1, ds) := s.leaves launch np ps changed
    let nodes := treeOf (treeDepth np) ds
    let w : Witness := ⟨some launch, np, nodes⟩
    { s1 with mod_ := { s1.mod_ with
        witness := w, wlog := (⟨launch, poisoned, phase, w.node 0 0⟩ :: s1.mod_.wlog).take 4096, wtotal := s1.mod_.wtotal + 1 } }

/-- Forms and writes the new version of a phase, and hashes it; the record's bit [63] is set where a byte that the merge
wrote stands poisoned after it (R380). -/
def State.mergePhase (s : State) (region n : Nat) : State :=
  match s.launchOf region with
  | none => s
  | some l =>
    let pages := l.img.pages
    let cells := s.written region n
    let atoms := s.catomsOf region n
    let rs := cellRuns cells
    let s0 := (rs.flatMap fun x => s.partBad pages x.1 x.2.length).foldl (fun s x => s.deferPart region n x) s
    let s1 := rs.foldl (fun s x => s.writeRun pages x.1 x.2) s0
    let s2 := atoms.foldl (fun s c => s.applyCatom pages c.1 c.2) s1
    let s3 := s2.modTiles region fun t =>
      { t with shadow := t.shadow.filter fun r => r.phase != n, catoms := t.catoms.filter fun r => r.phase != n }
    let vas := cells.map (·.1) ++ atoms.flatMap fun c => (List.range 8).map fun j => c.2.va + j
    s3.witness l.id l.img n (vas.any fun a => s3.vaPoisoned pages a) vas

/-! ## The course of a publish (R236) -/

def Cmd.isFillOf (c : Cmd) (n : Nat) : Bool :=
  c.phase ≤ n && match c.kind with
    | .fill _ => true
    | _ => false

/-- Whether a command or drain of a phase up to n is still to land on a tile. -/
def Tile.openIn (t : Tile) (n : Nat) : Bool :=
  t.cmds.any (fun c => c.phase ≤ n && !c.isFillOf n) || t.accs.any fun a => match a.op with
    | .dlist _ _ _ _ _ phase => phase ≤ n
    | .engine _ _ _ phase => phase ≤ n
    | _ => false

def State.phaseOpen (s : State) (region n : Nat) : Bool :=
  (s.indices region).any fun i => (s.tile? i).any fun t => t.openIn n

/-- Lands the fills of phases up to n, which read the version before the merge (R235). -/
def State.landFills (s : State) (region n : Nat) : State :=
  (s.indices region).foldl (fun s i => match s.tile? i with
    | none => s
    | some t => (t.cmds.filter fun c => c.isFillOf n).foldl (fun s c => s.landCmd i c) s) s

/-- What remains when a publish is done: a boundary completes (R365), or the launch has finished (R257).
DEDUCED, log entry 69. -/
def State.finishPublish (s : State) (region : Nat) (p : Publish) : State :=
  let slerr := (s.tilesOf region).map (·.slerr)
  let done (r : Region) : Region :=
    { r with retrying := false, fault := { r.fault with tries := 0, trans := r.fault.trans + boolNat r.retrying 1 } }
  let s1 :=
    match p.boundary with
    | none => s
    | some b =>
      let s1 := (s.modRegion region fun r =>
        let c := r.clusters.headD .none
        { done r with boundary := ⟨b, p.scy, p.phase + 1, c.variant, slerr⟩, poison := false }).modTiles region fun t =>
          { t with deferred := .none }
      if (s1.region? region).any (·.softReq.isSome) then s1.requestHalt region else s1
  if p.final then s1.modRegion region fun r => { done r with phase := .finished p.scy } else s1

/-- A publish closes the open phase at schedule cycle P (R236, R363). DEDUCED, log entry 70. -/
def State.closePhase (s : State) (region scy : Nat) (boundary : Option Nat) (final : Bool) : State :=
  match s.region? region with
  | none => s
  | some r =>
    let n := r.bphase
    let p : Publish := ⟨n, scy, boundary, s.wcy + s.timing.merge, none, final⟩
    let s1 := s.modRegion region fun r => { r with bphase := n + 1 }
    if r.suppressed then s1
    else if (boundary.isSome || final) && s.suppresses region n then s1.suppress region n
    else
      let idle := r.publishes.isEmpty && !s.phaseOpen region n && (s.written region n).isEmpty && (s.catomsOf region n).isEmpty
      if idle then (s1.landFills region n).finishPublish region p
      else
        let s2 := s1.modRegion region fun r => { r with publishes := r.publishes ++ [p] }
        if final then s2
        else (s2.raiseStall region .publish).modRegion region fun r => { r with preq := r.preq + 1 }

/-- PUBLISH_MERGE (R236, R237): the oldest publish merges once every command and drain of its phase has landed. -/
def State.tryMerge (s : State) (region : Nat) : State :=
  match s.region? region with
  | none => s
  | some r =>
    match r.publishes with
    | [] => s
    | p :: ps =>
      if p.merged.isSome || s.wcy < p.ready || s.phaseOpen region p.phase then s
      else
        let s1 := s.landFills region p.phase
        if (p.boundary.isSome || p.final) && s1.suppresses region p.phase then s1.suppress region p.phase
        else
          (s1.mergePhase region p.phase).modRegion region fun r =>
            { r with publishes := { p with merged := some (s.wcy + s.timing.propagate) } :: ps }

def execPublishMerge (r : Nat) (s : State) : Host.Outcome State Fault Refusal := .next (s.tryMerge r)

/-- PUBLISH_PROPAGATED (R236, R238): the oldest publish ends once it has merged and propagated, and the stall is withdrawn
with the last one. -/
def State.endPublish (s : State) (region : Nat) : State :=
  match s.region? region with
  | none => s
  | some r =>
    match r.publishes with
    | [] => s
    | p :: ps =>
      match p.merged with
      | none => s
      | some w =>
        if s.wcy < w then s
        else
          let s1 := (s.modRegion region fun r => { r with publishes := ps }).finishPublish region p
          if ps.isEmpty then s1.withdrawStall region .publish else s1

def execPublishPropagated (r : Nat) (s : State) : Host.Outcome State Fault Refusal := .next (s.endPublish r)

end Sys2Proof.Machine
end

