-- ==== Sys2Proof/Machine/Halt.lean ====
section
/-! DEFINITION. Halts and what follows them (R28, R361, R362, R367 to R369): the choice of the fault, retirement (R323, R329,
R377, R378), retry, pre-emption saves (R297, R373) and their completion. -/

namespace Sys2Proof.Machine

/-! ## The fault of a halt (R361, R362) -/

/-- The earlier of two faults: by FCYC, then by global live tile number. -/
def earlierFault (x y : Tile × FaultRec) : Tile × FaultRec :=
  if y.2.fcyc < x.2.fcyc ∨ (y.2.fcyc = x.2.fcyc ∧ y.1.glt < x.1.glt) then y else x

def firstOf : List (Tile × FaultRec) → Option (Tile × FaultRec)
  | [] => none
  | x :: xs => some (xs.foldl earlierFault x)

/-- The fault of a halt, and whether it is precise: the first precise one, else the first deferred one. -/
def State.haltFault (s : State) (region : Nat) : Option (Tile × FaultRec × Bool) :=
  let ts := s.tilesOf region
  match firstOf ((ts.filter (·.halt.valid)).map fun t => (t, t.halt)) with
  | some (t, f) => some (t, f, true)
  | none => (firstOf ((ts.filter (·.deferred.valid)).map fun t => (t, t.deferred))).map fun x => (x.1, x.2, false)

/-- The unit where a fault arose: the one recorded, else the reporting tile. -/
def State.placeOf (s : State) (t : Tile) (f : FaultRec) : Loc :=
  f.loc.getD ⟨0, (s.live.toList.getD t.site .full).physCol t.prow t.tx, t.prow, t.site⟩

/-- Whether a halt is retried (R367). -/
def State.retriable (s : State) (region : Nat) (f : FaultRec) (precise : Bool) : Bool :=
  let link (c : Nat) : Bool := c == 0x0601 || c == 0x0B01 || c == 0x0B02
  if !precise then f.code != 0x0308
  else f.code == 0x0306 || f.code == 0x0A02 || f.code == 0x0704 ||
    (f.code == 0x0201 && (s.tilesOf region).any fun t => link t.deferred.code || link t.cause.code)

/-! ## Retirement (R329, R377, R378) -/

/-- Appends an entry to the retirement log, which holds up to 4,096: copy A, then copy B (R377, R378). -/
def Module.logRetirement (m : Module) (e : RetEntry) : Module :=
  let k := m.retlog.length
  if 4096 ≤ k then m
  else
    let bs := e.bytes (k + 1)
    { m with retlog := m.retlog ++ [e], flashA := putCopy k bs m.flashA, flashB := putCopy k bs m.flashB }

def State.logRetirement (s : State) (e : RetEntry) : State := { s with mod_ := s.mod_.logRetirement e }

def State.modSite (s : State) (n : Nat) (f : SiteMap → SiteMap) : State :=
  { s with live := s.live.set (Fin.ofNat 80 n) (f (s.live.get (Fin.ofNat 80 n))) }

/-- Whether a row has its spare free. -/
def SiteMap.spare (m : SiteMap) (row : Nat) : Bool := m.sub.toList.getD row 31 == 31

/-- The live map of a site once a tile is retired (R329). A tile that carries nothing, because its row is removed or it has
been replaced already, changes no more than RETSEQ (R11, R378). -/
def SiteMap.retireTile (m : SiteMap) (row col seq : Nat) : SiteMap :=
  if !m.present row || m.sub.toList.getD row 31 == col then { m with retseq := seq }
  else if m.spare row then { m with sub := m.sub.set (Fin.ofNat 16 row) col, retseq := seq }
  else
    let gone (y : Nat) : Bool := !m.present y
    let beside : Bool := (0 < row && gone (row - 1)) || (row < 15 && gone (row + 1))
    let others := 16 - popCount 16 m.lrow.toNat
    { m with retseq := seq, lrow := if beside || 4 ≤ others then 0 else m.lrow &&& ~~~(BitVec.ofNat 16 (2 ^ row)) }

/-- The far side of a gateway's seam: site and edge; none at the edge of the field. -/
def acrossSeam (site e : Nat) : Option (Nat × Nat) :=
  let x := siteX site
  let y := siteY site
  match e with
  | 0 => if y = 0 then none else some (serp x (y - 1), 2)
  | 1 => if x = 9 then none else some (serp (x + 1) y, 3)
  | 2 => if y = 7 then none else some (serp x (y + 1), 0)
  | _ => if x = 0 then none else some (serp (x - 1) y, 1)

/-- Whether gateway g of a seam is retired on either side. -/
def State.gateRetired (s : State) (site e g : Nat) : Bool :=
  let bit (n e : Nat) : Bool := (s.live.toList.getD n .full).gret.getLsbD (4 * e + g)
  bit site e || ((acrossSeam site e).map fun x => bit x.1 x.2).getD false

/-- VIA of a retired gateway (R323). -/
def viaOf (g : Nat) : Nat := if g = 3 then 2 else g + 1

/-- The band entry of gateway g of a seam, by its retired gateways (R323). -/
def State.seamBand (s : State) (site e g : Nat) : Band :=
  if s.gateRetired site e g then
    if s.gateRetired site e (viaOf g) then ⟨0, 0, 2, 0⟩ else ⟨0, viaOf g, 1, 7 + (Config.detourLat site e g).val⟩
  else if ((List.range 4).filter fun k => s.gateRetired site e k && viaOf k == g).length = 2 then ⟨0, 0, 2, 0⟩
  else ⟨0, 0, 0, 6⟩

def State.setBand (s : State) (site e g : Nat) (b : Band) : State :=
  { s with bands := s.bands.set (Fin.ofNat 1280 (16 * site + 4 * e + g)) b }

/-- Rewrites the entries of both sides of a seam. -/
def State.rewriteSeam (s : State) (site e : Nat) : State :=
  match acrossSeam site e with
  | none => s
  | some (n, f) =>
    (List.range 4).foldl (fun s g =>
      let b := s.seamBand site e g
      (s.setBand site e g b).setBand n f g b) s

/-- Applies an entry of the retirement log to the maps (R329, R378). -/
def State.applyRetirement (s : State) (e : RetEntry) (seq : Nat) : State :=
  if e.kind = 1 then s.modSite e.site fun m => m.retireTile e.row e.col seq
  else
    (s.modSite e.site fun m =>
      { m with retseq := seq, gret := m.gret ||| BitVec.ofNat 16 (2 ^ (4 * e.row + e.col)) }).rewriteSeam e.site e.row

/-- Retires the tile or gateway at a location. -/
def State.retire (s : State) (loc : Loc) (code launch : Nat) : State :=
  let e : RetEntry := ⟨loc.ltype + 1, loc.lsite, loc.lrow, loc.lcol, code, s.wcy, launch⟩
  let s1 := s.logRetirement e
  s1.applyRetirement e s1.mod_.retlog.length

/-! ## Leaving the clusters with the context kept (R297, R358) -/

/-- A region record as a launch keeps it. -/
def Region.kept (r : Region) : Region :=
  { r with stalls := [], haltReq := none, softReq := none, hardReq := false, parkAfter := false, publishes := [],
           expiry := none, leaseLevel := none, retrying := false, suppressed := false }

/-- The buffer of the port that a launch holds through tile t is emptied: its words travel with the launch (R374). -/
def State.clearPort (s : State) (t : Tile) : State :=
  match s.portOf t with
  | some p => if s.grouped t then s.modPort p fun x => { x with buffer := [], fresh := 0, lost := [] } else s
  | none => s

/-- Writes the snapshot, keeps the context and frees the clusters; the launch waits again or is parked. -/
def State.leave (s : State) (l : Launch) (r : Region) (kind : Kept) : State :=
  let lease := s.leaseLeft r
  let hard : Bool := kind == .hard
  let ts := s.tilesOf r.id
  let lamps := r.rect.sites.map fun n => s.lamps.get (Fin.ofNat 80 n)
  let s0 := s.writeSnapshot l r hard
  let s1 := if hard then ts.foldl (fun s t => s.clearPort t) s0 else s0
  let s2 := { s1 with mod_ := { s1.mod_ with nextOrder := s1.mod_.nextOrder + 1 } }.modLaunch l.id fun l =>
    { l with state := if r.parkAfter then .parked else .waiting, preempted := true, kept := some kind,
             keptRegion := some r.kept, keptTiles := if hard then [] else ts,
             keptSpill := if hard then s.spill r else [], keptLamps := lamps, lease := lease, order := s1.mod_.nextOrder }
  s2.freeRegion r.id

/-! ## What a halt leads to (R367 to R369) -/

/-- Retries the interval, or ends the launch after four retries. -/
def State.tryAgain (s : State) (l : Launch) (r : Region) (code : Nat) : State :=
  if 4 ≤ r.fault.tries then s.endLaunch l.id code 3 r.scy
  else s.modRegion r.id fun r => { r with phase := .retryWait (s.wcy + s.timing.retry) }

/-- A lasting fault (R369). DEDUCED, log entry 72. -/
def State.lasting (s : State) (l : Launch) (r : Region) (loc : Loc) (code : Nat) : State :=
  match loc.ltype with
  | 0 =>
    let spare := (s.live.toList.getD loc.lsite .full).spare loc.lrow
    let s1 := s.retire loc code l.id
    if spare then s1.tryAgain l r code else s1.endLaunch l.id code 3 r.scy
  | 1 =>
    let s1 := s.retire loc code l.id
    if 4 ≤ r.fault.tries then s1.endLaunch l.id code 3 r.scy else s1.leave l r .soft
  | _ => s.endLaunch l.id code 3 r.scy

/-- What a halt holds on a tile (R101, R339). -/
def Region.heldOn (r : Region) (t : Tile) : HeldTile :=
  let k := r.clusters.getD t.cluster .none
  ⟨t.core.lands.map fun x => (k.clk.startOf k.scy x.due, x), t.wins.toList.map fun w => BitVec.ofNat 64 w.stateWord⟩

/-- The fault record of a halt (R362), with what it holds on the tiles of the region (R101, R335, R339). DEDUCED, log
entry 103. -/
def Region.recordFault (r : Region) (ts : List Tile) (t : Tile) (f : FaultRec) (loc : Loc) : Region :=
  { r with
    fault := { r.fault with code := f.code, ltype := loc.ltype, lcol := loc.lcol, lrow := loc.lrow, lsite := loc.lsite,
                            addr := f.faddr, fcyc := f.fcyc, glt := t.glt, wcy := r.stopW, held := ts.map r.heldOn },
    launchFault := if r.launchFault = 0 then f.code else r.launchFault, hardReq := false }

def RegionFault.at_ (f : RegionFault) : Loc := ⟨f.ltype, f.lcol, f.lrow, f.lsite⟩

/-- What follows a halt once its publishes have merged (R246). DEDUCED, log entry 67. -/
def State.settleHalt (s : State) (region : Nat) : State :=
  match s.region? region, s.launchOf region with
  | some r, some l =>
    match s.haltFault region with
    | none =>
      let hard := (s.tilesOf region).any fun t => t.rep.active
      s.modRegion region fun r => { r with phase := .saving hard (s.wcy + s.timing.save) }
    | some (t, f, precise) =>
      let loc := s.placeOf t f
      let r1 := r.recordFault (s.tilesOf region) t f loc
      let s1 := s.modRegion region fun _ => r1
      if !s.retriable region f precise then s1.endLaunch l.id f.code 3 r.scy
      else if r.retrying && r.fault.at_ == loc then s1.lasting l r1 loc f.code
      else s1.tryAgain l r1 f.code
  | _, _ => s

/-- The halt takes effect on every tile in one reference cycle (R28): stall requests are dropped. -/
def State.beginHalt (s : State) (region : Nat) : State :=
  let mine (i : Nat) : Bool := (s.tile? i).any fun t => t.region == region
  { s with syncs := s.syncs.filter fun q => !mine q.tile }.modRegion region fun r =>
    { r with phase := .halted, stalls := [], haltReq := none, wasFrozen := false, stopW := s.wcy }

/-- FAULT_HALT (R28, R361, R369): a halt that has come takes effect, and is settled once no publish is left to merge. -/
def State.haltNow (s : State) (region : Nat) : State :=
  match s.region? region with
  | none => s
  | some r =>
    let s1 := if r.haltReq.any fun h => h.at_ ≤ s.wcy then s.beginHalt region else s
    match s1.region? region with
    | none => s1
    | some r1 => if r1.phase = .halted ∧ r1.publishes.isEmpty then s1.settleHalt region else s1

def execFaultHalt (r : Nat) (s : State) : Host.Outcome State Fault Refusal := .next (s.haltNow r)

/-! ## Retry (R368) -/

/-- Clears DRIFT on the sites of a region and keeps the other fields of the sample registers. -/
def State.clearDrift (s : State) (r : Region) : State :=
  r.rect.sites.foldl (fun s n => s.modLamp n fun l => { l with drift := 0 }) s

/-- RETRY: every tile re-enters the interval that follows the last completed boundary. DEDUCED, log entry 43. -/
def State.retry (s : State) (region : Nat) : State :=
  match s.region? region, s.launchOf region with
  | some r, some l =>
    match r.phase with
    | .retryWait u =>
      if s.wcy < u then s
      else
        let blank := s.tilesFor l r.rect 0
        let ts := (blank.zip (s.tilesOf region)).zipIdx.map fun x =>
          x.1.1.reenter x.1.2 (r.boundary.slerr.getD x.2 (Vector.replicate 4 0)) r.boundary.scy
        let s1 := (s.setTilesOf region ts).modRegion region fun r =>
          { r with bphase := r.boundary.phase, publishes := [], poison := false, suppressed := false, stalls := [], haltReq := none,
                   retrying := true, fault := { r.fault with tries := r.fault.tries + 1 } }
        (s1.clearDrift r).enter region l.img
    | _ => s
  | _, _ => s

def execRetry (r : Nat) (s : State) : Host.Outcome State Fault Refusal := .next (s.retry r)

/-! ## Hard pre-emption (R297) -/

/-- Requests a hard stop: a stall request at once (R25). -/
def State.requestHard (s : State) (region : Nat) : State :=
  (s.raiseStall region .lantern).modRegion region fun r => { r with hardReq := true }

/-- PREEMPT_ESCALATE: no REPB within MAXINTV wall cycles after the soft request; one that has issued stops the region once
its publish is done, and one that is done already has requested the halt. -/
def State.escalate (s : State) (region : Nat) : State :=
  match s.region? region, s.launchOf region with
  | some r, some l =>
    match r.softReq with
    | some w =>
      let reached := r.haltReq.isSome || r.publishes.any fun p => p.boundary.isSome
      if r.phase = .running ∧ !r.hardReq ∧ !r.retrying ∧ !reached ∧ w + l.img.maxintv < s.wcy then s.requestHard region else s
    | none => s
  | _, _ => s

def execPreemptEscalate (r : Nat) (s : State) : Host.Outcome State Fault Refusal := .next (s.escalate r)

/-- Whether the save of a region may be complete: its wall time has passed, no halt is on its way (R28) and, for a hard one,
every command and every publish has landed (R246, R248). -/
def State.saveDone (s : State) (r : Region) : Option Kept :=
  match r.phase with
  | .saving hard u =>
    let landed : Bool := !hard || (s.tilesOf r.id).all fun t => t.cmds.isEmpty
    if s.wcy < u || !landed || !r.publishes.isEmpty || r.haltReq.isSome then none else some (if hard then .hard else .soft)
  | _ => none

/-- SAVE_COMPLETE (R297): the clusters are freed, EVPRE rises, and the launch waits again or is parked. -/
def State.finishSave (s : State) (id : Nat) : State :=
  match s.launch? id, s.regionOfLaunch id with
  | some l, some r =>
    match s.saveDone r with
    | none => s
    | some kind => (s.leave l r kind).bump .completion l.desc.evpre
  | _, _ => s

def execSaveComplete (id : Nat) (s : State) : Host.Outcome State Fault Refusal := .next (s.finishSave id)

end Sys2Proof.Machine
end

