-- ==== Sys2Proof/Machine/Region.lean ====
section
/-! DEFINITION. The cycle of a region (R4, R5, R24 to R26, R344 to R347, R350, R351, R356, R357): freezes, the slots that every
tile issues together, the advance of the schedule counter and the clocks, samples, energy, and the end of a launch (R257,
R268, R372). -/

namespace Sys2Proof.Machine

/-! ## Freezes (R25, R26, R338) -/

/-- Whether a stall request freezes its region in a wall cycle. -/
def Stall.freezes (x : Stall) (w : Nat) : Bool :=
  decide (x.raised + Config.treeLatency ≤ w) && match x.withdrawn with
    | none => true
    | some v => w < v + Config.treeLatency

def Region.frozenAt (r : Region) (w : Nat) : Bool := r.stalls.any fun x => x.freezes w

/-- Whether the schedule of a region runs, frozen or not. -/
def Region.live (r : Region) : Bool :=
  match r.phase with
  | .running => true
  | .ending _ => true
  | _ => false

/-- REGION_FREEZE (R25, R297, R338): a frozen reference cycle passes; the stop of a hard pre-emption starts its save, unless
a halt is on its way, which comes first (R28). -/
def State.freezeCycle (s : State) (region : Nat) : State :=
  match s.region? region with
  | none => s
  | some r =>
    if !r.live || !r.frozenAt s.wcy then s
    else
      let stop : Bool := r.hardReq && r.haltReq.isNone && r.stalls.any fun x => x.by_ == .lantern && x.freezes s.wcy
      s.modRegion region fun r =>
        { r with frozen := r.frozen + 1, nfrz := if r.wasFrozen then r.nfrz else r.nfrz + 1, wasFrozen := true,
                 phase := if stop then .saving true (s.wcy + s.timing.save) else r.phase,
                 stopW := if stop then s.wcy else r.stopW }

def execRegionFreeze (r : Nat) (s : State) : Host.Outcome State Fault Refusal := .next (s.freezeCycle r)

/-- REGION_RELEASE (R25): the schedule goes on; requests whose frozen interval has passed are forgotten. -/
def State.releaseRegion (s : State) (region : Nat) : State :=
  s.modRegion region fun r =>
    if r.frozenAt s.wcy then r
    else
      { r with wasFrozen := false, stalls := r.stalls.filter fun x => match x.withdrawn with
          | some v => s.wcy < v + Config.treeLatency
          | none => true }

def execRegionRelease (r : Nat) (s : State) : Host.Outcome State Fault Refusal := .next (s.releaseRegion r)

/-! ## Slots that every tile issues at one schedule cycle (R246) -/

/-- Whether two requests belong to one group. -/
def SyncReq.with (x y : SyncReq) : Bool :=
  x.scy == y.scy && match x.kind, y.kind with
    | .publish, .publish => true
    | .realign, .realign => true
    | .pswitch n _ _, .pswitch m _ _ => n == m
    | .repb n, .repb m => n == m
    | .halt, .halt => true
    | _, _ => false

/-- The requests of the tiles of a region. -/
def State.syncsOf (s : State) (region : Nat) : List SyncReq :=
  s.syncs.filter fun q => (s.tile? q.tile).any fun t => t.region == region

/-- Whether every tile of a region has issued a request of the group. -/
def State.complete (s : State) (region : Nat) (x : SyncReq) : Bool :=
  (s.indices region).all fun i => s.syncs.any fun q => q.tile == i && q.with x

/-- Whether a cluster's tick happens in the present wall cycle: its clock does not lose it (R344). -/
def Cluster.ticks (c : Cluster) : Bool := 0 ≤ c.slip

/-- Whether a group can no longer be completed: a tile of a cluster that has reached its cycle has not issued. -/
def State.broken (s : State) (region : Nat) (x : SyncReq) : Bool :=
  (s.indices region).any fun i => (s.tile? i).any fun t =>
    let c := s.cluster t
    !(s.syncs.any fun q => q.tile == i && q.with x) && (x.scy < c.scy || (c.scy == x.scy && c.ticks))

/-- 0x0201 on every tile that issued (R246). -/
def State.breakGroup (s : State) (region : Nat) (x : SyncReq) : State :=
  let mine := (s.syncsOf region).filter fun q => q.with x
  let s1 := { s with syncs := s.syncs.filter fun q => !mine.contains q }
  mine.foldl (fun s q => s.faultTile q.tile 0x0201 0 q.slot q.scy) s1

/-- The boundary that a REPB of every tile gives the PUBLISH of its cycle (R371). -/
def boundaryOf (qs : List SyncReq) (scy : Nat) : Option Nat :=
  qs.findSome? fun q => if q.scy = scy then (match q.kind with
    | .repb n => some n
    | _ => none) else none

/-- The SCY of a region's least-advanced cluster decides the balance of R357; a negative one demotes the launch. -/
def State.energyCheck (s : State) (region : Nat) : State :=
  match s.region? region with
  | none => s
  | some r => if r.ebal < 0 then s.demote r.launch else s

/-- What a complete group does to its region (R236, R357, R372). DEDUCED, log entry 73. -/
def State.groupDone (s : State) (region : Nat) (x : SyncReq) : State :=
  let qs := s.syncsOf region
  match x.kind with
  | .publish =>
    let b := boundaryOf (qs.filter (s.complete region)) x.scy
    s.closePhase region x.scy b false
  | .pswitch _ _ _ => s.energyCheck region
  | .halt =>
    s.modRegion region fun r => { r with phase := if r.phase = .running then .ending x.scy else r.phase, endAt := some x.scy }
  | _ => s

/-- The complete groups of a region take effect in the order PUBLISH, switch points, HALT, and leave the list. -/
def State.finishGroups (s : State) (region : Nat) : State :=
  let firsts (p : SyncKind → Bool) : List SyncReq :=
    ((s.syncsOf region).filter fun q => p q.kind && s.complete region q).foldl (fun acc q =>
      if acc.any (·.with q) then acc else acc ++ [q]) []
  let pubs := firsts fun k => k == .publish
  let switches := firsts fun k => match k with
    | .pswitch _ _ _ => true
    | _ => false
  let halts := firsts fun k => k == .halt
  let rest := firsts fun k => match k with
    | .repb _ => true
    | .realign => true
    | _ => false
  let done := pubs ++ switches ++ halts ++ rest
  let s1 := (pubs ++ switches ++ halts).foldl (fun s q => s.groupDone region q) s
  let mine := s.syncsOf region
  { s1 with syncs := s1.syncs.filter fun q => !(mine.contains q && done.any (·.with q)) }

/-- The broken groups of a region take their faults. -/
def State.breakGroups (s : State) (region : Nat) : State :=
  ((s.syncsOf region).filter (s.broken region)).foldl (fun s q => s.breakGroup region q) s

/-! ## What a cluster does at its own REALIGN and PSWITCH (R347, R351, R356, R183) -/

/-- The pending level that a cluster applies at switch point p: the smallest that is due. That a younger one does not count and
stays pending is DEDUCED, log entry 105. -/
def dueFid (ts : List Tile) (p : Nat) : Option Nat :=
  (ts.filterMap fun t => t.pendFid).foldl (fun m x =>
    if x.2 + 256 ≤ p then some (match m with
      | none => x.1
      | some v => min v x.1) else m) none

/-- The clock of a cluster at a PSWITCH at p: what it hands over to at p + dc, if anything; a CLKDIV set equal to the divisors
in force is applied and changes nothing (R353). -/
def Cluster.switchClock (c : Cluster) (g : Image) (p : Nat) (enter : Option Nat) : Cluster :=
  match enter with
  | some v =>
    { c with variant := v, clk := { c.clk with pend := .none, handover := some (p + c.clk.div.ctl, g.divsOf v) } }
  | .none =>
    match c.clk.pend with
    | some d =>
      if c.clk.target = some d ∧ c.clk.ready p then
        { c with clk := { c.clk with pend := .none,
                                     handover := if d = c.clk.div then c.clk.handover else some (p + c.clk.div.ctl, d) } }
      else c
    | .none => c

/-- A step whose fetch starts in the switch point's own cycle runs at the level applied there (R183). -/
def MTask.relevel (x : MTask) (p level : Nat) : MTask :=
  match x.act with
  | .steps ds => { x with act := .steps (ds.map fun d => if d.at_ = p then { d with level := level } else d) }
  | _ => x

/-- A cluster's tiles have issued PSWITCH. -/
def State.switchCluster (s : State) (region k p : Nat) (enter : Option Nat) : State :=
  match s.imageOf region with
  | none => s
  | some g =>
    let mine (t : Tile) : Bool := t.region == region && t.cluster == k
    let fid := dueFid (s.tiles.filter mine) p
    let s1 := s.modCluster region k fun c =>
      let c1 := c.switchClock g p enter
      let c2 := match fid with
        | some l => { c1 with fid := s.fidAt c1.site l }
        | none => c1
      c2.retarget g
    { s1 with tiles := s1.tiles.map fun t =>
        if mine t then
          { t with variant := enter.getD t.variant, mtasks := match fid with
                     | some l => t.mtasks.map fun x => x.relevel p (s.fidAt t.site l)
                     | none => t.mtasks,
                   pendFid := t.pendFid.filter fun x => p < x.2 + 256 }
        else t }

/-- A cluster's tiles have issued REALIGN: its hold begins. -/
def State.holdCluster (s : State) (region k : Nat) : State :=
  s.modCluster region k fun c => { c with hold := (s.lamps.get (Fin.ofNat 80 c.site)).drift, held := 0 }

/-- Applies to its cluster the first request of each that has not been applied. DEDUCED, log entry 59. -/
def State.applySyncs (s : State) (region : Nat) : State :=
  let fresh := (s.syncsOf region).filter fun q => !q.applied
  let ks := (fresh.filterMap fun q => (s.tile? q.tile).map (·.cluster)).eraseDups
  let s1 := ks.foldl (fun s k =>
    match fresh.find? fun q => (s.tile? q.tile).any (fun t => t.cluster == k) && (match q.kind with
      | .realign => true
      | .pswitch _ _ _ => true
      | _ => false) with
    | none => s
    | some q =>
      match q.kind with
      | .realign => s.holdCluster region k
      | .pswitch _ _ enter => s.switchCluster region k q.scy enter
      | _ => s) s
  { s1 with syncs := s1.syncs.map fun q => if fresh.contains q then { q with applied := true } else q }

/-! ## The schedule counter and the clocks (R4, R5, R350, R351) -/

/-- The domain cycles that run once the counter reads a new value; a handover starts new cycles of every domain. -/
def Clock.tick (k : Clock) (scy : Nat) : Clock :=
  let moved : Option Divs := match k.handover with
    | some (at_, d) => if at_ ≤ scy then some d else none
    | none => none
  match moved with
  | some d =>
    { k with div := d, org := scy, ctl := k.ctl + 1, mat := k.mat + 1, vec := k.vec + 1, cpy := k.cpy + 1, liveB := !k.liveB,
             target := none, handover := none }
  | none =>
    let next (cur d : Nat) : Nat := if (scy - k.org) % d = 0 then cur + 1 else cur
    { k with ctl := next k.ctl k.div.ctl, mat := next k.mat k.div.mat, vec := next k.vec k.div.vec, cpy := next k.cpy k.div.cpy }

/-- One schedule cycle of a cluster ends. -/
def Cluster.step (c : Cluster) (g : Image) : Cluster :=
  if c.slip < 0 then { c with slip := c.slip + 1 }
  else if 0 < c.hold then c
  else { c with scy := c.scy + 1, clk := c.clk.tick (c.scy + 1) }.retarget g

/-- The end of a region's cycle: groups and their effects, then every cluster's counter; `only` names the cluster of an
extra cycle. Answers the state and the clusters that have a further cycle to run. -/
def State.endCycle (s : State) (region : Nat) (only : Option Nat) : State × List Nat :=
  let s1 := ((s.applySyncs region).finishGroups region).breakGroups region
  match s1.region? region, s1.imageOf region with
  | some r, some g =>
    if !r.live then (s1, [])
    else
      let moves (k : Nat) : Bool := only.all (· == k)
      let step (k : Nat) (c : Cluster) : Cluster :=
        if !moves k then c
        else if only.isSome then { c with slip := c.slip - 1 }.step g else c.step g
      let cs := r.clusters.zipIdx.map fun x => step x.2 x.1
      let slipped (f : Arrival → Arrival) (t : Tile) : Tile := { t with arrivals := t.arrivals.map f }
      let s2 := s1.modTiles region fun t =>
        let c := s1.cluster t
        if !moves t.cluster then t
        else if only.isSome then slipped (Arrival.gained c.scy) t
        else if c.slip < 0 then slipped (Arrival.lost c.scy) t
        else t
      (s2.modRegion region fun r => { r with clusters := cs },
        (cs.zipIdx.filter fun x => moves x.2 && Decidable.decide (0 < x.1.slip) && x.1.hold == 0).map (·.2))
  | _, _ => (s1, [])

/-! ## Samples (R345, R346) -/

/-- The gateway whose sideband carries a seam's sample. -/
def State.sampleGate (s : State) (site e : Nat) : Nat := ((List.range 4).find? fun g => !s.gateRetired site e g).getD 0

def natGap (x y : Nat) : Nat := (x - y) + (y - x)

/-- The SCY of the cluster of a region at a site. -/
def Region.scyAt (r : Region) (site : Nat) : Nat := ((r.clusters.find? fun c => c.site == site).map (·.scy)).getD 0

/-- LAMPLIGHTER_SAMPLE: taken of every placed region, whatever it does, in a cycle with WCY mod 4,096 = 0. It sees the cycles
that a hold has held by then (R347). DEDUCED, log entry 74. -/
def State.sample (s : State) (region : Nat) : State :=
  match s.region? region with
  | none => s
  | some r =>
    if s.wcy % 4096 ≠ 0 then s
    else
      let least := r.scy
      let seams := r.rect.seams.map fun x => (x.1, x.2, (farSide x.1 x.2).1, natGap (r.scyAt x.1) (r.scyAt (farSide x.1 x.2).1))
      let s1 := r.clusters.foldl (fun s c =>
        let worst := (seams.filter fun x => x.1 == c.site || x.2.2.1 == c.site).foldl (fun m x => max m x.2.2.2) 0
        s.modLamp c.site fun l =>
          { over_ := l.over_ || Decidable.decide (3 < worst), nsamp := l.nsamp + 1, edgemax := max l.edgemax worst, drift := c.scy - least }) s
      let s2 := s1.modRegion region fun r => { r with clusters := r.clusters.map fun c => { c with held := 0 } }
      (seams.filter fun x => 3 < x.2.2.2).foldl (fun s x => s.seamFault region x.1 x.2.1 (s.sampleGate x.1 x.2.1)) s2

def execLamplighterSample (r : Nat) (s : State) : Host.Outcome State Fault Refusal := .next (s.sample r)

/-! ## Energy (R357) -/

/-- ENERGY_UPDATE: the balances after one microsecond, by the rail telemetry's reading `nj`. -/
def State.updateEnergy (s : State) (nj : Nat) : State :=
  let descOf (id : Nat) : Option Descriptor := (s.launch? id).map (·.desc)
  let filled (b : Int) (d : Descriptor) : Int := min (b + d.efill) (1000 * d.ecap : Nat)
  let regions := s.regions.map fun r =>
    match descOf r.launch with
    | none => r
    | some d =>
      let e := (r.clusters.map fun c => Config.railEnergy c.site nj).sum
      { r with ebal := filled r.ebal d - e, echg := r.echg + e }
  let waits (l : Launch) : Bool := l.state == .waiting || l.state == .parked
  let short := s.launches.any fun l => waits l && l.short
  { s with
    regions := regions,
    launches := s.launches.map fun l => if waits l then { l with ebal := filled l.ebal l.desc, short := false } else l,
    mod_ := if short then { s.mod_ with decisions := s.mod_.decisions + 1 } else s.mod_ }

def execEnergyUpdate (nj : Nat) (s : State) : Host.Outcome State Fault Refusal := .next (s.updateEnergy nj)

/-! ## The end of a launch (R257, R268, R372) -/

/-- Whether nothing of a tile is still to complete. -/
def Tile.quiet (t : Tile) : Bool :=
  t.core.lands.isEmpty && t.mtasks.isEmpty && t.accs.isEmpty && t.wbuf.isEmpty && t.cmds.isEmpty

/-- Whether a completed launch copies its tapes back. -/
def Launch.copiesTapes (l : Launch) : Bool := !l.replay && l.tapeVa != 0 && !l.tapeDone

/-- Checks every slot of a tape set for writing; the first that fails gives the tape code. -/
def State.checkSlots (s : State) (l : Launch) : List Tile → State × Nat
  | [] => (s, 0)
  | t :: ts =>
    match s.checkVa (queueLantern l.queue) (l.tapeVa + t.posn * 0x40000) 0x40000 true with
    | (s1, some c) => (s1, c)
    | (s1, none) => s1.checkSlots l ts

/-- TAPE_SET_COPY (R268): every tile's tape goes to its slot, or none does. -/
def State.copyTapes (s : State) (id : Nat) : State :=
  match s.launch? id, s.regionOfLaunch id with
  | some l, some r =>
    match r.phase with
    | .finished _ =>
      if !l.copiesTapes then s
      else
        let s0 := s.modTiles r.id fun t => t.finishTape l
        let ts := s0.tilesOf r.id
        match s0.checkSlots l ts with
        | (s1, 0) =>
          (ts.foldl (fun s t =>
            s.writeVa (queueLantern l.queue) (l.tapeVa + t.posn * 0x40000) (t.tape.bytes 0 (64 + 8 * t.rec_.nrec))) s1).modLaunch id
              fun l => { l with tapeDone := true }
        | (s1, c) => s1.modLaunch id fun l => { l with tapeDone := true, tapeCode := c }
    | _ => s
  | _, _ => s

def execTapeSetCopy (id : Nat) (s : State) : Host.Outcome State Fault Refusal := .next (s.copyTapes id)

/-- Whether every stall request raised has had its frozen interval, and no halt is on its way (R27, R28). -/
def Region.settled (r : Region) (w : Nat) : Bool :=
  r.haltReq.isNone && r.stalls.all fun x => x.withdrawn.any fun v => v + Config.treeLatency ≤ w

/-- LAUNCH_COMPLETE (R257): once everything in flight has landed, and the stalls and halts outstanding have come (R28,
R372), the open phase is published as at a boundary; once that is done the record is written and the clusters are freed. -/
def State.completeLaunch (s : State) (region : Nat) : State :=
  match s.region? region, s.launchOf region with
  | some r, some l =>
    match r.phase with
    | .ending h =>
      if (s.tilesOf region).all (·.quiet) && r.publishes.isEmpty && r.settled s.wcy then
        (s.modRegion region fun r => { r with phase := .publishing h }).closePhase region h none true
      else s
    | .finished h => if l.copiesTapes then s else s.endLaunch l.id r.launchFault 0 h
    | _ => s
  | _, _ => s

def execLaunchComplete (r : Nat) (s : State) : Host.Outcome State Fault Refusal := .next (s.completeLaunch r)

end Sys2Proof.Machine
end

