-- ==== Sys2Proof/Machine/Lantern.lean ====
section
/-! DEFINITION. The instructions that run on Lanterns only (R299 to R307), and the events of a Lantern's device accesses and
waits (R100, R260, R285, R301). -/

namespace Sys2Proof.Machine

/-! ## Forms -/

/-- How a Lantern X slot uses registers (R299): every S source counts as control (R98). -/
def useLan (i : Instr) (g : Guard) (srcs dsts : List SOp) : Use :=
  { insn := i, guard := g, only := some .lantern, srcs := srcs.map fun x => (x, true), dsts := dsts, guardReason := 0x0002,
    srcReason := none, always := none, taped := false }

/-- The Lantern that issues. -/
def State.lanternNo (s : State) : Fin 4 :=
  match s.focus with
  | .lantern n => n
  | .tile _ => 0

/-- The form d, sources: the status or value lands one cycle after issue (R299). DEDUCED, log entry 76. -/
def lanternOp (i : Instr) (g : Guard) (d : SOp) (srcs : List SOp)
    (f : Fin 4 → List Word → State → Except Trap (State × Word)) (s : State) : Host.Outcome State Fault Refusal :=
  issue (useLan i g srcs [d]) s fun vs s =>
    match f s.lanternNo (vs.map (·.val)) s with
    | .error t => .error t
    | .ok (s1, v) => .ok (s1.landS d v false false 1 1)

/-! ## LAUNCH (R300) -/

/-- The 32 bytes of an entry at a Lantern address, read as LD (R284, R285). -/
def State.readEntry32 (s : State) (n : Fin 4) (a : Word) : State × Except Trap (List Byte) :=
  match lanternSpace a 32 with
  | none => (s, .error (s.trapAt 0x0301 a))
  | some (.ctl _) => (s, .error (s.trapAt 0x0302 a))
  | some (.sram off) => (s, s.readSram n off 32 a)
  | some (.dev va) =>
    match (s.drainDev n).readVa n va 32 with
    | (_, .error c) => (((s.readyDev n).readVa n va 32).1, .error (s.trapAt c a))
    | (s1, .ok (bs, false)) => (s1, .ok bs)
    | (_, .ok (_, true)) => (((s.readyDev n).readVa n va 32).1, .error (s.trapAt 0x0306 a))

/-- What a LAUNCH entry asks for; none where a reserved field is set or a field is outside its range (R291). -/
def launchReq (queue : Nat) (bs : List Byte) : Option LaunchReq :=
  let flags := getLE bs 1 1
  let evt := getLE bs 2 2
  let w1 := getLE bs 8 8
  let bad : Bool := getLE bs 0 1 != 1 || flags / 4 != 0 || evt / 1024 != 0 || getLE bs 4 4 != 0 || getLE bs 0x18 8 != 0 ||
    w1 % 128 != 0
  if bad then none
  else some { queue := queue, evt := evt, w1 := w1, w2 := getLE bs 0x10 8, replay := bitOf flags 0, serial := bitOf flags 1,
              byInsn := 16 ≤ queue }

/-- The value of a refusal: 1 << 63 | code. -/
def refusalWord (code : Nat) : Word := word (2 ^ 63 + code)

/-- The launch that an entry of the instruction asks for, and the value it delivers. -/
def State.launchOf32 (s : State) (n : Fin 4) (bs : List Byte) : State × Word :=
  match launchReq (16 + n.val) bs with
  | none => (s, refusalWord 0x0801)
  | some r =>
    if r.serial then (s, refusalWord 0x0801)
    else
      match s.acceptLaunch r with
      | (s1, .error c) => (s1, refusalWord c)
      | (s1, .ok id) => (s1, word id)

def execLaunch (g : Guard) (d a : SOp) (s : State) : Host.Outcome State Fault Refusal :=
  issue (useLan (.launch g d a) g [a] [d]) s fun vs s =>
    let n := s.lanternNo
    let a := (srcAt vs 0).val
    if a.toNat % 32 ≠ 0 then .error (s.trapAt 0x0302 a)
    else
      match s.readEntry32 n a with
      | (s1, .error f) => .ok ((s.counted s1).takeFault f)
      | (s1, .ok bs) =>
        let (s2, v) := s1.launchOf32 n bs
        .ok (s2.landS d v false false 1 1)

/-! ## EVWAIT and EVSIG (R301) -/

/-- What an EVWAIT of the present bundle read once its event was there. -/
def Lantern.waited (l : Lantern) (slot : Nat) : Option Word := (l.waits.find? fun w => w.slot == slot).bind (·.got)

/-- EVWAIT: with the event there the counter lands; otherwise the wait is noted, and the step holds the bundle. -/
def execEvwait (g : Guard) (d e v : SOp) (s : State) : Host.Outcome State Fault Refusal :=
  issue (useLan (.evwait g d e v) g [e, v] [d]) s fun vs s =>
    let j := (srcAt vs 0).val
    let b := (srcAt vs 1).val
    if 1024 ≤ j.toNat then .error s.badOperand
    else
      let now := s.event j.toNat
      match (s.lanterns.get s.lanternNo).waited s.slot with
      | some x => .ok (s.landS d x false false 1 1)
      | none =>
        if b.toNat ≤ now.toNat then .ok (s.landS d now false false 1 1)
        else .ok (s.modLantern s.lanternNo fun l => { l with waits := l.waits ++ [⟨s.slot, j.toNat, b, none, 0⟩] })

/-- EVWAIT_WAKE: waits whose event has come take the counter's value. -/
def State.wakeWaits (s : State) (n : Fin 4) : State :=
  s.modLantern n fun l =>
    { l with waits := l.waits.map fun w =>
        if w.got.isNone && Decidable.decide (w.value.toNat ≤ (s.event w.ev).toNat) then { w with got := some (s.event w.ev), cyc := l.cyc }
        else w }

def execEvwaitWake (n : Fin 4) (s : State) : Host.Outcome State Fault Refusal := .next (s.wakeWaits n)

/-- EVSIG: performed after the Lantern's earlier accesses, as an STL (R260). -/
def execEvsig (g : Guard) (op : EvOp) (e v : SOp) (s : State) : Host.Outcome State Fault Refusal :=
  issue (useLan (.evsig g op e v) g [e, v] []) s fun vs s =>
    let j := (srcAt vs 0).val.toNat
    if 1024 ≤ j then .error s.badOperand
    else .ok ((s.drainDev s.lanternNo).signal (.lantern s.lanternNo) op j (srcAt vs 1).val)

/-! ## LDA, STL and FENCE (R302) -/

def execLda (g : Guard) (d a : SOp) (s : State) : Host.Outcome State Fault Refusal :=
  issue (useLan (.lda g d a) g [a] [d]) s fun vs s => lanternLoad s.lanternNo (srcAt vs 0).val 8 false true d s

/-- STL: the data source is not control (R98). -/
def execStl (g : Guard) (d a : SOp) (s : State) : Host.Outcome State Fault Refusal :=
  issue { useLan (.stl g d a) g [] [] with srcs := [(d, false), (a, true)] } s fun vs s =>
    lanternStore s.lanternNo (srcAt vs 1).val 8 (srcAt vs 0).val true s

/-- FENCE: earlier accesses are performed; with T the translation cache is emptied. -/
def execFence (g : Guard) (t : Bool) (s : State) : Host.Outcome State Fault Refusal :=
  issue (useLan (.fence g t) g [] []) s fun _ s =>
    let s1 := s.drainDev s.lanternNo
    .ok (if t then s1.modLantern s1.lanternNo fun l => { l with tlb := [] } else s1)

/-! ## CLRUN (R303) -/

/-- The internal queue of a Lantern. -/
def internalQueue (n : Fin 4) : Fin 20 := ⟨16 + n.val, by omega⟩

/-- Whether a list VA and size keep their limits (R291, R303). -/
def listOk (va size : Nat) : Bool := va % 32 == 0 && va < 2 ^ 48 && size % 32 == 0 && 32 ≤ size && size ≤ 2 ^ 20

/-- DEDUCED, log entry 77. -/
def State.clrun (s : State) (n : Fin 4) (a b : Word) : State × Word :=
  let q := s.queues.get (internalQueue n)
  if !listOk a.toNat b.toNat then (s, 3)
  else if q.state = .disabled ∨ q.state = .stopped ∨ q.state = .error then
    (s.modQueue (internalQueue n) fun q =>
      { q with list := some ⟨a.toNat, a.toNat + b.toNat⟩, stack := [none], en := true, state := .running, code := 0, block := none }, 0)
  else (s, 2)

def execClrun (g : Guard) (d a b : SOp) (s : State) : Host.Outcome State Fault Refusal :=
  lanternOp (.clrun g d a b) g d [a, b] (fun n vs s => .ok (s.clrun n (vs.getD 0 0) (vs.getD 1 0))) s

/-! ## PREEMPT, RESUME and KILL (R304) -/

/-- Whether a placed region may be pre-empted: it runs or is about to, and is not being retried. -/
def Region.preemptable (r : Region) : Bool :=
  !r.retrying && match r.phase with
    | .loading _ => true
    | .loaded => true
    | .armed _ => true
    | .running => true
    | _ => false

/-- DEDUCED, log entry 78. -/
def State.preempt (s : State) (id b : Word) : State × Word :=
  if 2 ≤ b.toNat then (s, 3)
  else
    match s.launch? id.toNat, s.regionOfLaunch id.toNat with
    | none, _ => (s, 1)
    | some _, none => (s, 2)
    | some _, some r =>
      if !r.preemptable then (s, 2)
      else if b = 0 then (s.requestSoft id.toNat true, 0)
      else if r.hardReq then (s.modRegion r.id fun r => { r with parkAfter := true }, 0)
      else ((s.modRegion r.id fun r => { r with parkAfter := true }).requestHard r.id, 0)

def execPreempt (g : Guard) (d a b : SOp) (s : State) : Host.Outcome State Fault Refusal :=
  lanternOp (.preempt g d a b) g d [a, b] (fun _ vs s => .ok (s.preempt (vs.getD 0 0) (vs.getD 1 0))) s

def State.resume (s : State) (id b : Word) : State × Word :=
  if 512 ≤ b.toNat then (s, 3)
  else
    match s.launch? id.toNat with
    | none => (s, 1)
    | some l =>
      if l.state ≠ .parked then (s, 2)
      else
        ((s.modLaunch l.id fun l =>
          { l with state := .waiting, desc := { l.desc with place := if bitOf b.toNat 8 then some (b.toNat % 256) else none } }).again, 0)

def execResume (g : Guard) (d a b : SOp) (s : State) : Host.Outcome State Fault Refusal :=
  lanternOp (.resume g d a b) g d [a, b] (fun _ vs s => .ok (s.resume (vs.getD 0 0) (vs.getD 1 0))) s

/-- Whether a launch has reached its end, its record being still to write. -/
def Region.finished (r : Region) : Bool :=
  match r.phase with
  | .finished _ => true
  | _ => false

def State.kill (s : State) (id : Word) : State × Word :=
  match s.launch? id.toNat with
  | none => (s, 1)
  | some l =>
    if l.state = .ended ∨ ((s.regionOfLaunch l.id).map Region.finished).getD false then (s, 2)
    else (s.killLaunch l.id, 0)

def execKill (g : Guard) (d a : SOp) (s : State) : Host.Outcome State Fault Refusal :=
  lanternOp (.kill g d a) g d [a] (fun _ vs s => .ok (s.kill (vs.getD 0 0))) s

/-! ## LEASE and ERET (R305, R306) -/

def execLease (g : Guard) (d a b : SOp) (s : State) : Host.Outcome State Fault Refusal :=
  lanternOp (.lease g d a b) g d [a, b] (fun _ vs s => .ok (s.requestLease (vs.getD 0 0).toNat (vs.getD 1 0))) s

/-- ERET. In a delay bundle it takes the place of the transfer that was due. DEDUCED, log entry 106. -/
def execEret (g : Guard) (s : State) : Host.Outcome State Fault Refusal :=
  issue (useLan (.eret g) g [] []) s fun _ s =>
    let l := s.lanterns.get s.lanternNo
    if !l.exc then .error s.badOperand
    else .ok (s.modLantern s.lanternNo Lantern.returnFrom)

/-! ## WREAD (R307) -/

/-- The status of a WREAD, and the node it reads. -/
def State.wread (s : State) (id : Word) (sel : Nat) : Nat × BitVec 384 :=
  let w := s.mod_.witness
  let level := sel % 16
  let idx := bitsOf sel 4 48
  if (s.launch? id.toNat).isNone then (1, 0)
  else if w.launch ≠ some id.toNat then (2, 0)
  else if sel / 2 ^ 52 ≠ 0 ∨ treeDepth w.np < level ∨ 16 ^ level ≤ idx then (3, 0)
  else (0, w.node level idx)

/-- DEDUCED, log entry 79. -/
def execWread (g : Guard) (a c sel : SOp) (s : State) : Host.Outcome State Fault Refusal :=
  issue (useLan (.wread g a c sel) g [a, c, sel] []) s fun vs s =>
    let n := s.lanternNo
    let at_ := (srcAt vs 1).val
    match lanternSpace at_ 64 with
    | some (.sram off) =>
      if off % 64 ≠ 0 then .error (s.trapAt 0x0302 at_)
      else
        let (st, node) := s.wread (srcAt vs 0).val (srcAt vs 2).val.toNat
        let tail := leBytes 8 st ++ List.replicate 8 0
        if st = 0 then s.writeSram n off (digestBytes node ++ tail) at_ else s.writeSram n (off + 48) tail at_
    | _ => .error (s.trapAt 0x0301 at_)

/-! ## Device accesses that end by themselves (R100, R260) -/

/-- Takes an access out of the queue of a Lantern. -/
def Lantern.dropDev (l : Lantern) (ord : Nat) : Lantern := { l with dev := l.dev.filter fun x => x.ord != ord }

/-- Ends the queued access of a number, if nothing must be performed before it. -/
def State.performOne (s : State) (n : Fin 4) (ord : Nat) (p : DevKind → Bool) : State :=
  let dev := (s.lanterns.get n).dev
  match dev.find? fun x => x.ord == ord with
  | none => s
  | some x =>
    if !p x.kind || !mayPerform (dev.takeWhile fun y => y.ord != ord) x then s
    else (s.performDev n x).modLantern n fun l => l.dropDev ord

/-- LANTERN_LOAD_RETURN: the data of a load or an atomic return. -/
def execLanternLoadReturn (n : Fin 4) (k : Nat) (s : State) : Host.Outcome State Fault Refusal :=
  .next (s.performOne n k fun d => !d.isStore)

/-- LANTERN_STORE_PERFORMED: a store reaches its frame. -/
def execLanternStorePerformed (n : Fin 4) (k : Nat) (s : State) : Host.Outcome State Fault Refusal :=
  .next (s.performOne n k fun d => d.isStore)

end Sys2Proof.Machine
end

