-- ==== Sys2Proof/Machine/Queue.lean ====
section
/-! DEFINITION. The queue walkers (R289 to R292): reading an entry, the entries, blocking and its end, and the events of the
queue registers. -/

namespace Sys2Proof.Machine

/-! ## Reading an entry (R290) -/

def State.queue (s : State) (q : Fin 20) : Queue := s.queues.get q

/-- Whether a running queue has an entry to read; the internal queues read lists only. -/
def Queue.hasEntry (x : Queue) (q : Fin 20) : Bool :=
  x.state == .running && (x.list.isSome || (decide (q.val < 16) && x.head != x.tail))

/-- The VA of the next entry; none where it would extend past its list's end. -/
def Queue.entryVa (x : Queue) : Option Nat :=
  match x.list with
  | some p => if p.va + 32 ≤ p.last then some p.va else none
  | none => some (x.base + 32 * x.head)

/-- The bytes of the next entry, or the code that stops the queue. -/
def State.fetchEntry (s : State) (q : Fin 20) : State × Except Nat (List Byte) :=
  match (s.queue q).entryVa with
  | none => (s, .error 0x0802)
  | some va => s.readBytes (queueLantern q.val) va 32

/-- The entry is finished: the position moves past it. -/
def State.doneEntry (s : State) (q : Fin 20) : State := s.modQueue q fun x => { x with state := .running, block := none }.advance

/-- The entry blocks. -/
def State.blockEntry (s : State) (q : Fin 20) (b : QBlock) : State :=
  s.modQueue q fun x => { x with state := .blocked, block := some b }

/-- The queue stops in ERROR on the entry. -/
def State.failEntry (s : State) (q : Fin 20) (code : Nat) : State := s.queueStop q .error code

/-- The fields of an entry (R291). -/
structure Entry where
  ty : Nat
  flags : Nat
  evt : Nat
  a32 : Nat
  w1 : Nat
  w2 : Nat
  w3 : Nat
  deriving DecidableEq, Repr

def Entry.of (bs : List Byte) : Entry :=
  ⟨getLE bs 0 1, getLE bs 1 1, getLE bs 2 2, getLE bs 4 4, getLE bs 8 8, getLE bs 0x10 8, getLE bs 0x18 8⟩

/-- Performs the next entry of a queue when it has the type given. -/
def State.withEntry (s : State) (q : Fin 20) (ty : Nat) (f : State → Entry → List Byte → State) : State :=
  if !(s.queue q).hasEntry q then s
  else
    match s.fetchEntry q with
    | (s1, .error c) => s1.failEntry q c
    | (s1, .ok bs) => if (Entry.of bs).ty = ty then f s1 (Entry.of bs) bs else s

/-! ## Entries (R291) -/

/-- Whether the queue already has a launch that was submitted by an entry and is not yet placed (R294). -/
def State.unplaced (s : State) (q : Fin 20) : Bool :=
  s.launches.any fun l => l.queue == q.val && !l.byInsn && l.state == .waiting && !l.preempted

/-- LAUNCH. -/
def State.launchEntry (s : State) (q : Fin 20) : State :=
  s.withEntry q 0x01 fun s _ bs =>
    match launchReq q.val bs with
    | none => s.failEntry q 0x0801
    | some r =>
      if s.unplaced q then s.blockEntry q .behindLaunch
      else
        match s.acceptLaunch { r with byInsn := false } with
        | (s1, .error c) => s1.failEntry q c
        | (s1, .ok id) => if r.serial then s1.blockEntry q (.serialLaunch id) else s1.doneEntry q

/-- WAIT. -/
def State.waitEntry (s : State) (q : Fin 20) : State :=
  s.withEntry q 0x02 fun s e _ =>
    if e.flags ≠ 0 ∨ 1024 ≤ e.evt ∨ e.a32 ≠ 0 ∨ e.w2 ≠ 0 ∨ e.w3 ≠ 0 then s.failEntry q 0x0801
    else if e.w1 ≤ (s.event e.evt).toNat then s.doneEntry q
    else s.blockEntry q (.waitEvent e.evt (word e.w1))

/-- The operation of SIGNAL. -/
def signalOp : Nat → Option EvOp
  | 0 => some .set
  | 1 => some .add
  | 2 => some .max
  | _ => none

/-- SIGNAL. -/
def State.signalEntry (s : State) (q : Fin 20) : State :=
  s.withEntry q 0x03 fun s e _ =>
    match signalOp e.flags with
    | none => s.failEntry q 0x0801
    | some op =>
      if 1024 ≤ e.evt ∨ e.a32 ≠ 0 ∨ e.w2 ≠ 0 ∨ e.w3 ≠ 0 then s.failEntry q 0x0801
      else (s.signal (.walker q) op e.evt (word e.w1)).doneEntry q

/-- The condition of a code of R46. -/
def condOf (c : Nat) : Cond :=
  match c with
  | 0 => .eq
  | 1 => .ne
  | 2 => .lt
  | 3 => .ge
  | 4 => .ltu
  | _ => .geu

/-- Moves past an entry and n more; a skip that would pass QTAIL ends there. -/
def Queue.skip (x : Queue) (n : Nat) : Queue :=
  match x.list with
  | some p => { x with list := some { p with va := p.va + 32 * (n + 1) } }
  | none =>
    let left := (x.tail + x.ring - x.head) % x.ring
    { x with head := (x.head + min (n + 1) left) % x.ring }

/-- The value that a SKIPIF compares, or the code of a failure. -/
def State.skipValue (s : State) (q : Fin 20) (e : Entry) : State × Except Nat Word :=
  if bitOf e.flags 3 then (s, .ok (s.event e.evt))
  else
    match s.readBytes (queueLantern q.val) e.w2 8 with
    | (s1, .error c) => (s1, .error c)
    | (s1, .ok bs) => (s1, .ok (word (leNat bs)))

/-- SKIPIF. -/
def State.skipif (s : State) (q : Fin 20) : State :=
  s.withEntry q 0x04 fun s e _ =>
    let src := bitOf e.flags 3
    let bad : Bool := 16 ≤ e.flags || 6 ≤ e.flags % 8 || e.a32 == 0 || 256 ≤ e.a32 || e.w3 != 0 ||
      (if src then decide' (1024 ≤ e.evt) || e.w2 != 0 else e.evt != 0 || e.w2 % 8 != 0)
    if bad then s.failEntry q 0x0801
    else
      match s.skipValue q e with
      | (s1, .error c) => s1.failEntry q c
      | (s1, .ok x) => if condHolds (condOf (e.flags % 8)) x (word e.w1) then s1.modQueue q fun y => y.skip e.a32 else s1.doneEntry q
where decide' (p : Prop) [Decidable p] : Bool := Decidable.decide p

/-- JUMP. DEDUCED, log entry 80. -/
def State.jump (s : State) (q : Fin 20) : State :=
  s.withEntry q 0x05 fun s e _ =>
    if 2 ≤ e.flags ∨ e.evt ≠ 0 ∨ e.w3 ≠ 0 then s.failEntry q 0x0801
    else if e.flags = 0 then
      if 16 ≤ q.val ∨ (s.queue q).ring ≤ e.a32 ∨ e.w1 ≠ 0 ∨ e.w2 ≠ 0 then s.failEntry q 0x0801
      else s.modQueue q fun x => { x with list := none, stack := [], head := e.a32 }
    else if e.a32 ≠ 0 ∨ !listOk e.w1 e.w2 then s.failEntry q 0x0801
    else
      s.modQueue q fun x =>
        let y := if x.list.isSome then x else { x.advance with stack := [none] }
        { y with list := some ⟨e.w1, e.w1 + e.w2⟩ }

/-- CALL. -/
def State.callEntry (s : State) (q : Fin 20) : State :=
  s.withEntry q 0x06 fun s e _ =>
    if e.flags ≠ 0 ∨ e.evt ≠ 0 ∨ e.a32 ≠ 0 ∨ e.w3 ≠ 0 ∨ !listOk e.w1 e.w2 ∨ 8 ≤ (s.queue q).csd then s.failEntry q 0x0801
    else
      s.modQueue q fun x =>
        let y := x.advance
        { y with list := some ⟨e.w1, e.w1 + e.w2⟩, stack := y.list :: (if x.list.isSome then x.stack else []) }

/-- Whether every field after TYPE is zero. -/
def Entry.bare (e : Entry) : Bool := e.flags == 0 && e.evt == 0 && e.a32 == 0 && e.w1 == 0 && e.w2 == 0 && e.w3 == 0

/-- RETURN. -/
def State.returnEntry (s : State) (q : Fin 20) : State :=
  s.withEntry q 0x07 fun s e _ =>
    if !e.bare then s.failEntry q 0x0801
    else if (s.queue q).csd = 0 then s.failEntry q 0x0801
    else s.modQueue q fun x => { x with list := x.stack.headD none, stack := x.stack.drop 1 }

/-- COPY: both ranges must translate (R290); the bytes land when the copy completes. DEDUCED, log entry 82. -/
def State.copyEntry (s : State) (q : Fin 20) : State :=
  s.withEntry q 0x08 fun s e _ =>
    if 2 ≤ e.flags ∨ 1024 ≤ e.evt ∨ e.a32 = 0 ∨ e.w3 ≠ 0 then s.failEntry q 0x0801
    else
      match s.checkVa (queueLantern q.val) e.w1 e.a32 false with
      | (s1, some c) => s1.failEntry q c
      | (s1, none) =>
        match s1.checkVa (queueLantern q.val) e.w2 e.a32 true with
        | (s2, some c) => s2.failEntry q c
        | (s2, none) =>
          let id := s2.mod_.nextCopy
          let s3 := { s2 with
            copies := s2.copies ++ [(⟨id, q.val, e.evt, e.a32, e.w1, e.w2, s2.wcy + s2.timing.copy⟩ : QCopy)],
            mod_ := { s2.mod_ with nextCopy := id + 1 } }
          if e.flags = 1 then s3.blockEntry q (.serialCopy id) else s3.doneEntry q

/-- Copies the bytes of frames to frames with the poison of each; the bytes are written where the destination lies. -/
def State.copyPieces (s : State) (dst : List (Place × Nat)) (bs : List Byte) (ps : List Bool) : State :=
  (dst.foldl (fun (acc : State × List Byte × List Bool) p =>
    (acc.1.writePlace p.1 (acc.2.1.take p.2) (acc.2.2.take p.2), acc.2.1.drop p.2, acc.2.2.drop p.2)) (s, bs, ps)).1

/-- The bytes of frames in order, each with its poison. -/
def State.readMarked (s : State) (ps : List (Place × Nat)) : State × List Byte × List Bool :=
  ps.foldl (fun (acc : State × List Byte × List Bool) p =>
    let (s1, b, bad, _) := acc.1.readPlace p.1 0 p.2
    (s1, acc.2.1 ++ b, acc.2.2 ++ bad)) (s, [], [])

/-- COPY_COMPLETE: the bytes have landed at their frames, and EVT rises (R291, R292). -/
def State.finishCopy (s : State) (k : Nat) : State :=
  match s.copies.find? fun c => c.id == k with
  | none => s
  | some c =>
    if s.wcy < c.ready then s
    else
      let n := queueLantern c.queue
      let s0 := { s with copies := s.copies.filter fun x => x.id != k }
      match s0.piecesVa n c.src c.len false with
      | (s1, .error _) => s1.bump .completion c.evt
      | (s1, .ok from_) =>
        match s1.piecesVa n c.dst c.len true with
        | (s2, .error _) => s2.bump .completion c.evt
        | (s2, .ok to_) =>
          let (s3, bs, ps) := s2.readMarked from_
          (s3.copyPieces to_ bs ps).bump .completion c.evt

/-- WITNESS: the launch's latest record of the witness log. DEDUCED, log entry 81. -/
def State.witnessEntry (s : State) (q : Fin 20) : State :=
  s.withEntry q 0x09 fun s e _ =>
    if e.flags ≠ 0 ∨ 1024 ≤ e.evt ∨ e.a32 ≠ 0 ∨ e.w2 % 64 ≠ 0 ∨ e.w3 ≠ 0 then s.failEntry q 0x0801
    else
      match s.mod_.wlog.find? fun w => w.launch == e.w1 with
      | none => s.failEntry q 0x0801
      | some w =>
        match s.checkVa (queueLantern q.val) e.w2 64 true with
        | (s1, some c) => s1.failEntry q c
        | (s1, none) => ((s1.writeVa (queueLantern q.val) e.w2 w.bytes).bump .completion e.evt).doneEntry q

/-- END. -/
def State.endEntry (s : State) (q : Fin 20) : State :=
  s.withEntry q 0x0F fun s e _ =>
    if !e.bare then s.failEntry q 0x0801 else (s.doneEntry q).queueStop q .stopped 0

/-! ## Blocked entries (R289 to R291, R294) -/

/-- ENTRY_UNBLOCK: what a blocked queue waits for has come. -/
def State.unblock (s : State) (q : Fin 20) : State :=
  let x := s.queue q
  if x.state ≠ .blocked then s
  else
    match x.block with
    | some (.waitEvent j v) => if v.toNat ≤ (s.event j).toNat then s.doneEntry q else s
    | some .behindLaunch => if s.unplaced q then s else s.modQueue q fun x => { x with state := .running, block := none }
    | some (.serialLaunch id) =>
      if ((s.launch? id).map fun l => l.state == .ended && !l.evDue).getD true then s.doneEntry q else s
    | some (.serialCopy k) => if s.copies.any fun c => c.id == k then s else s.doneEntry q
    | none => s

/-! ## The walker (R290) -/

/-- The event that an entry's type names. -/
def entryEvent (q : Fin 20) : Nat → Option Instr
  | 0x01 => some (.launchEntry q)
  | 0x02 => some (.waitEntry q)
  | 0x03 => some (.signalEntry q)
  | 0x04 => some (.skipif q)
  | 0x05 => some (.jump q)
  | 0x06 => some (.callEntry q)
  | 0x07 => some (.returnEntry q)
  | 0x08 => some (.copyEntry q)
  | 0x09 => some (.witnessEntry q)
  | 0x0F => some (.endEntry q)
  | _ => none

/-- One step of a walker: the event that it is to perform, or the end of the queue's run on an entry that cannot be read
or has no listed type. -/
def State.walkQueue (s : State) (q : Fin 20) : State × Option Instr :=
  let x := s.queue q
  if x.state = .blocked then (s, some (.entryUnblock q))
  else if !x.hasEntry q then (s, none)
  else
    match s.fetchEntry q with
    | (s1, .error c) => (s1.failEntry q c, none)
    | (s1, .ok bs) =>
      match entryEvent q (Entry.of bs).ty with
      | none => (s1.failEntry q 0x0803, none)
      | some e => (s, some e)

/-! ## Events -/

/-- The offset of the registers of a queue (R289). -/
def queueOff (q : Fin 20) : Nat := 0x010000 + 0x40 * q.val

def execQtailWrite (q : Fin 20) (v : Word) (s : State) : Host.Outcome State Fault Refusal :=
  .next (s.atReg (queueOff q) fun s => s.writeTail q v)

def execQueueEnable (q : Fin 20) (s : State) : Host.Outcome State Fault Refusal :=
  .next (s.atReg (queueOff q) fun s => s.enableQueue q)

def execQueueDisable (q : Fin 20) (s : State) : Host.Outcome State Fault Refusal :=
  .next (s.atReg (queueOff q) fun s => s.disableQueue q)

def execQueueRestart (q : Fin 20) (s : State) : Host.Outcome State Fault Refusal :=
  .next (s.atReg (queueOff q) fun s => s.restartQueue q)

def execLaunchEntry (q : Fin 20) (s : State) : Host.Outcome State Fault Refusal := .next (s.launchEntry q)
def execWaitEntry (q : Fin 20) (s : State) : Host.Outcome State Fault Refusal := .next (s.waitEntry q)
def execSignalEntry (q : Fin 20) (s : State) : Host.Outcome State Fault Refusal := .next (s.signalEntry q)
def execSkipif (q : Fin 20) (s : State) : Host.Outcome State Fault Refusal := .next (s.skipif q)
def execJump (q : Fin 20) (s : State) : Host.Outcome State Fault Refusal := .next (s.jump q)
def execCallEntry (q : Fin 20) (s : State) : Host.Outcome State Fault Refusal := .next (s.callEntry q)
def execReturnEntry (q : Fin 20) (s : State) : Host.Outcome State Fault Refusal := .next (s.returnEntry q)
def execCopyEntry (q : Fin 20) (s : State) : Host.Outcome State Fault Refusal := .next (s.copyEntry q)
def execCopyComplete (k : Nat) (s : State) : Host.Outcome State Fault Refusal := .next (s.finishCopy k)
def execWitnessEntry (q : Fin 20) (s : State) : Host.Outcome State Fault Refusal := .next (s.witnessEntry q)
def execEndEntry (q : Fin 20) (s : State) : Host.Outcome State Fault Refusal := .next (s.endEntry q)
def execEntryUnblock (q : Fin 20) (s : State) : Host.Outcome State Fault Refusal := .next (s.unblock q)

end Sys2Proof.Machine
end

