-- ==== Sys2Proof/Machine/Outside.lean ====
section
/-! DEFINITION. The outside world (R190, R262, R286, R336, R344, R385 to R388, R393 to R399): the host's writes and reads,
timing, power and cooling, boot, resets, firmware, attestation, soft errors and slips of a cluster's clock, and a bundle
that fails its checks (R39). -/

namespace Sys2Proof.Machine

/-! ## A bundle that fails the checks of R39 -/

/-- INVALID_BUNDLE: the bundle that the issuing core would fetch takes the fault of its checks, and no slot has effect. -/
def State.failBundle (s : State) : State :=
  match s.coreOf s.focus with
  | none => s
  | some c =>
    match fetchBundle (s.codeOf s.focus) (agentKind s.focus) c.target c.pc with
    | .ok _ => s
    | .error (code, addr, slot) => s.takeFault ⟨code, word addr, slot⟩

def execInvalidBundle (s : State) : Host.Outcome State Fault Refusal := .next s.failBundle

/-! ## The host (R262, R385, R386) -/

/-- HOST_EVENT_WRITE: a write through BAR0 sets an event counter (R292). -/
def execHostEventWrite (j : Fin 1024) (v : Word) (s : State) : Host.Outcome State Fault Refusal :=
  .next (s.atReg (0x020000 + 8 * j.val) fun s => s.signal .host .set j.val v)

/-- The slice DPA of a BAR2 offset (R385). -/
def State.bar2 (s : State) (off : Nat) : Nat := off + 2 ^ 30 * s.mod_.win2

/-- HOST_BAR2_WRITE: a posted write is performed at its frame; bytes at or above 320 GiB are discarded. -/
def State.bar2Write (s : State) (off : Nat) (data : List Byte) : State :=
  let a := s.bar2 off
  let bs := data.take (Config.dpaEnd - a)
  if bs.isEmpty then s else s.writePhys false a bs (bs.map fun _ => false)

def execHostBar2Write (off : Nat) (data : List Byte) (s : State) : Host.Outcome State Fault Refusal :=
  .next (s.bar2Write off data)

/-- HOST_BAR2_READ: the bytes as performed, with EP where one is poisoned, or an Unsupported Request. -/
def State.bar2Read (s : State) (off n : Nat) : State :=
  let a := s.bar2 off
  let answer (s : State) (x : List Byte × Bool × Bool) : State := { s with mod_ := { s.mod_ with answers := x :: s.mod_.answers } }
  if Config.dpaEnd < a + n then answer s ([], false, true)
  else
    let (s1, bs, ps, _) := s.readPlace ⟨0, a⟩ 0 n
    answer s1 (bs, ps.any id, false)

def execHostBar2Read (off n : Nat) (s : State) : Host.Outcome State Fault Refusal := .next (s.bar2Read off n)

/-- The size that the host gives BAR2 through Resizable BAR (R385). -/
def State.resizeBar2 (s : State) (k : Fin 10) : State := { s with mod_ := { s.mod_ with bar2Gib := 2 ^ k.val } }

/-- An MSI-X table entry as its 16 bytes. PRESUMED, log entry 33. -/
def MsixEntry.bytes (e : MsixEntry) : List Byte :=
  leBytes 8 e.addr.toNat ++ leBytes 4 e.data.toNat ++ leBytes 4 (boolNat e.masked 1)

/-- The pending-bit array (R385). -/
def Module.pending (m : Module) : Nat := m.msix.toList.zipIdx.foldl (fun acc x => acc + boolNat x.1.pending (2 ^ x.2)) 0

/-- The eight bytes at an aligned BAR0 offset: control space, the MSI-X table, the pending bits, else zero (R385); the table
and the bits do not work after a failed boot (R397). -/
def State.bar0Word (s : State) (off : Nat) : List Byte :=
  if off < 0x1000000 then leBytes 8 (s.ctlWord off).toNat
  else if s.mod_.feat = 0 then leBytes 8 0
  else if off < 0x1000400 then
    (((s.mod_.msix.get (Fin.ofNat 64 ((off - 0x1000000) / 16))).bytes.drop (off % 16)).take 8)
  else if off = 0x1001000 then leBytes 8 s.mod_.pending
  else leBytes 8 0

/-- A host read through BAR0: 4 or 8 bytes, naturally aligned (R385); another one completes as an Unsupported Request.
DEDUCED, log entry 93. -/
def State.bar0Read (s : State) (off n : Nat) : State :=
  let bs := ((s.bar0Word (off / 8 * 8)).drop (off % 8)).take n
  let ok : Bool := (n == 4 || n == 8) && off % n == 0 && off < 2 ^ 26
  { s with mod_ := { s.mod_ with answers := (if ok then (bs, false, false) else ([], false, true)) :: s.mod_.answers } }

/-- A write of 8 bytes of the MSI-X table: the address, or the data and the mask; an unmasked entry that is pending sends
its message (R386). PRESUMED, log entry 33. -/
def State.writeMsix (s : State) (o : Nat) (v : Word) : State :=
  let k : Fin 64 := Fin.ofNat 64 (o / 16)
  let e := s.mod_.msix.get k
  if o % 16 = 0 then { s with mod_ := { s.mod_ with msix := s.mod_.msix.set k { e with addr := v } } }
  else
    let masked := bitOf v.toNat 32
    let e1 : MsixEntry := { e with data := v.truncate 32, masked := masked, pending := e.pending && masked }
    let s1 := { s with mod_ := { s.mod_ with msix := s.mod_.msix.set k e1 } }
    if e.pending && !masked then { s1 with mod_ := { s1.mod_ with sent := k.val :: s1.mod_.sent } } else s1

/-- A host write of 8 bytes through BAR0; an offset that is not 8-aligned is discarded (R385). -/
def State.bar0Write (s : State) (off : Nat) (v : Word) : State :=
  if off % 8 ≠ 0 then s
  else if off < 0x1000000 then s.writeCtl .host off v
  else if off < 0x1000400 && s.mod_.feat != 0 then s.writeMsix (off - 0x1000000) v
  else s

/-- REGISTER_WRITE. -/
def execRegisterWrite (off : Nat) (v : Word) (s : State) : Host.Outcome State Fault Refusal := .next (s.bar0Write off v)

/-- LANTERN_START and LANTERN_STOP (R286). -/
def execLanternStart (n : Fin 4) (s : State) : Host.Outcome State Fault Refusal :=
  .next (s.atReg (0x100 * n.val) fun s => s.modLantern n Lantern.start)

def execLanternStop (n : Fin 4) (s : State) : Host.Outcome State Fault Refusal :=
  .next (s.atReg (0x100 * n.val) fun s => s.modLantern n Lantern.stop)

/-- FEATURE_COMMIT (R387). -/
def execFeatureCommit (s : State) : Host.Outcome State Fault Refusal := .next { s with mod_ := s.mod_.commit }

/-! ## Power and cooling (R395, R396) -/

/-- PWRCAP_WRITE. -/
def execPwrcapWrite (level : Fin 8) (s : State) : Host.Outcome State Fault Refusal :=
  .next (s.atReg 0x0E0020 fun s => s.setPower { s.mod_ with caplvl := level.val })

/-- INPUT_POWER_CHANGE. -/
def execInputPowerChange (level : Fin 8) (s : State) : Host.Outcome State Fault Refusal :=
  .next (s.setPower { s.mod_ with inlvl := level.val })

/-- COOL by the flow in L/min and the inlet temperature in °C (R396). -/
def coolOf (flow inlet : Nat) : Nat :=
  if flow < 20 ∨ 40 < inlet then 0
  else if 40 ≤ flow ∧ inlet ≤ 30 then 7
  else if 40 ≤ flow ∧ inlet ≤ 35 then 5
  else 2

/-- COOLANT_CHANGE. -/
def execCoolantChange (flow inlet : Nat) (s : State) : Host.Outcome State Fault Refusal :=
  .next (s.setPower { s.mod_ with flow := flow, inlet := inlet, cool := coolOf flow inlet })

/-- JUNCTION_OVERTEMP: COOL := 0 and MODCTL.EVT [16]. DEDUCED, log entry 35. -/
def execJunctionOvertemp (s : State) : Host.Outcome State Fault Refusal :=
  .next ((s.setPower { s.mod_ with cool := 0 }).raiseEvt 0)

/-- THERMAL_SHUTDOWN: logic-wafer power goes, and every launch with it, without a record. -/
def State.powerOff (s : State) : State :=
  { s with
    tiles := [], regions := [], launches := [], copies := [], syncs := [], agenda := [],
    lanterns := Vector.replicate 4 .reset, queues := Vector.replicate 20 .reset,
    mod_ := { s.mod_ with powered := false, leases := [], decisions := 0 } }

def execThermalShutdown (s : State) : Host.Outcome State Fault Refusal := .next s.powerOff

/-! ## Attestation (R399) -/

def execAttestRequest (s : State) : Host.Outcome State Fault Refusal := .next s.startAttest

/-- SHA-384 of the controller firmware that was booted, and of the Lantern firmware: of the image that was written, or of the
one from the factory, which is a free value (R399). DESIGN CHOICE, log entry 49. -/
def Module.controllerHash (m : Module) : List Byte :=
  match m.booted.bind fun k => (m.fw[k]?).bind (·.image) with
  | some bs => sha384 bs
  | none => beBytes 48 Config.controllerHash.toNat

def Module.lanternHash (m : Module) : List Byte :=
  match m.lanternImage with
  | some bs => sha384 bs
  | none => beBytes 48 Config.lanternHash.toNat

/-- The report over a nonce: its bytes, the signature being a free value. DESIGN CHOICE, log entry 49. -/
def State.report (s : State) (nonce : List Byte) (n : Nat) : List Byte :=
  leBytes 4 0x4B574154 ++ leBytes 2 1 ++ leBytes 1 Config.gen ++ leBytes 1 0 ++ padBytes 48 nonce ++
    s.mod_.controllerHash ++ s.mod_.lanternHash ++
    sha384 (s.live.toList.flatMap SiteMap.bytes) ++ beBytes 96 (Config.attestSignature n).toNat

/-- ATTEST_REPORT_DONE. -/
def State.finishAttest (s : State) : State :=
  let a := s.mod_.attest
  match a.busy with
  | none => s
  | some u =>
    if s.wcy < u then s
    else
      { s with mod_ := { s.mod_ with
          attest := { a with report := s.report a.latched a.count, busy := none, done := true, count := a.count + 1 } } }

def execAttestReportDone (s : State) : Host.Outcome State Fault Refusal := .next s.finishAttest

/-! ## Time (R336, R393, R394) -/

/-- Reference cycles in an offset of ps: 400 ps each. -/
def psCycles (ps : Int) : Int := ps / 400

/-- PTP_SYNC: the first Sync after boot steps WCY, if no launch has been accepted; a later one sets what is to be slewed.
PRESUMED, log entry 34. DEDUCED, log entry 83. -/
def State.syncTime (s : State) (offsetPs : Int) : State :=
  let m := s.mod_
  let good := if -20000 ≤ offsetPs ∧ offsetPs ≤ 20000 then m.goodSyncs + 1 else 0
  let correct := -psCycles offsetPs
  let step : Bool := !m.stepped && !m.launched
  let wcy := if step then ((s.wcy : Int) + correct).toNat else s.wcy
  let m1 := { m with offs := offsetPs, goodSyncs := min good 8, lock := 8 ≤ good, lastSync := wcy, stepped := m.stepped || step, freeRun := false,
                     slew := if step then 0 else correct, lastSlew := if step then wcy else m.lastSlew }
  let s1 := { s with wcy := wcy, mod_ := m1 }
  if m.lock && !m1.lock then s1.raiseEvt 3 else s1

def execPtpSync (offsetPs : Int) (s : State) : Host.Outcome State Fault Refusal := .next (s.syncTime offsetPs)

/-- Two seconds in reference cycles. -/
def syncLimit : Nat := 5000000000

/-- PTP_SYNC_TIMEOUT: two seconds without a Sync clear LOCK, set MODCTL.EVT [19], and leave WCY to run free. -/
def State.loseSync (s : State) : State :=
  if s.wcy < s.mod_.lastSync + syncLimit then s
  else { s with mod_ := { s.mod_ with lock := false, goodSyncs := 0, slew := 0, freeRun := true } }.raiseEvt 3

def execPtpSyncTimeout (s : State) : Host.Outcome State Fault Refusal := .next s.loseSync

/-! ## Boot, resets and firmware (R388, R397, R398) -/

/-- The slot that the controller boots: the valid one of highest version whose index is at least the fused counter. -/
def Module.bootSlot (m : Module) : Option Nat :=
  let ok (k : Nat) : Bool := match m.fw[k]? with
    | some x => x.present && x.verified && m.fused ≤ x.index
    | none => false
  let version (k : Nat) : Nat := ((m.fw[k]?).map (·.version)).getD 0
  if ok 0 && ok 1 then some (if version 0 < version 1 then 1 else 0)
  else if ok 0 then some 0
  else if ok 1 then some 1
  else none

/-- The module's registers after a boot at wall cycle w: what flash and the measured inputs keep, the retirement log as boot
reads it, and everything else at its reset value; DEVCAP stays 0 where no firmware verifies, the Lanterns' included (R397). -/
def Module.rebooted (m : Module) (w : Nat) : Module :=
  { Module.reset with
    feat := if m.bootSlot.isSome && m.lanternOk then 0x7F else 0, inlvl := m.inlvl, cool := coolOf m.flow m.inlet, flow := m.flow,
    inlet := m.inlet, fw := m.fw, fused := m.fused, booted := m.bootSlot, lanternImage := m.lanternImage,
    lanternOk := m.lanternOk, dead := m.dead, retlog := m.bootLog.retlog, flashA := m.flashA, flashB := m.bootLog.flashB,
    sent := m.sent, answers := m.answers, lastSync := w, bar2Gib := m.bar2Gib,
    attest := { Module.reset.attest with count := m.attest.count } }

/-- A Lantern after boot: its firmware stands from SRAM offset 0 on (R397). DESIGN CHOICE, log entry 94. -/
def Module.bootLantern (m : Module) : Lantern :=
  { Lantern.reset with sram := ⟨cellsFrom 0 ((m.lanternImage.getD []).take Config.sramSize), []⟩ }

/-- The live map of self-test (R327): every row present, a dead tile replaced by its row's spare, a second one removing
the row. -/
def State.selfTest (s : State) : State :=
  s.mod_.dead.foldl (fun s x => s.modSite x.1 fun m => { m.retireTile x.2.1 x.2.2 0 with retseq := m.retseq })
    { s with live := Vector.replicate 80 .full, bands := bandTable }

/-- POWER_ON_BOOT (R397, R378): the maps are built by self-test and the retirement log, and the band table is written.
DESIGN CHOICE, log entry 36. -/
def State.boot (s : State) : State :=
  let s0 : State := { State.reset with
    wcy := s.wcy, dram := s.dram, host := s.host, fids := s.fids, mod_ := s.mod_.rebooted s.wcy, inputs := s.inputs,
    lanterns := Vector.replicate 4 s.mod_.bootLantern, timing := s.timing, agenda := [], focus := s.focus }
  (s0.mod_.retlog.zipIdx).foldl (fun s x => s.applyRetirement x.1 (x.2 + 1)) s0.selfTest

def execPowerOnBoot (s : State) : Host.Outcome State Fault Refusal := .next s.boot

/-- FUNCTION_LEVEL_RESET (R388). -/
def State.flr (s : State) : State :=
  let live := (s.launches.filter fun l => l.state != .ended).map (·.id)
  let s1 := live.foldl (fun s id => s.killLaunch id) s
  { s1 with
    queues := s1.queues.map Queue.disable,
    lanterns := s1.lanterns.map Lantern.stop,
    mod_ := { s1.mod_ with acc := 0, ready := false, err := false } }

def execFunctionLevelReset (s : State) : Host.Outcome State Fault Refusal := .next s.flr

/-- FIRMWARE_IMAGE_VERIFY (R398): an image written into the idle slot is bootable once it verifies.
DEDUCED, log entry 84. -/
def State.verifyImage (s : State) (image : List Byte) (version index : Nat) : State :=
  let idle : Fin 2 := if s.mod_.booted = some 1 then 0 else 1
  { s with mod_ := { s.mod_ with fw := s.mod_.fw.set idle ⟨true, version, index, Config.imageVerifies image, some image⟩ } }

def execFirmwareImageVerify (image : List Byte) (version index : Nat) (s : State) : Host.Outcome State Fault Refusal :=
  .next (s.verifyImage image version index)

/-! ## Soft errors and slips (R43, R190, R167, R344) -/

/-- The mark and the bytes of a word after a soft error. DEDUCED, log entry 85. -/
def Mem.strike (m : Mem) (w : Nat) (k : ErrKind) : Mem :=
  match k with
  | .correctable =>
    if (m.mark w).err = .uncorrectable then m else m.setMark w { m.mark w with err := .correctable }
  | .uncorrectable data => (m.setBytes (8 * w) (leBytes 8 data.toNat)).setMark w { m.mark w with err := .uncorrectable }

/-- SOFT_ERROR. -/
def State.strike (s : State) (at_ : ErrTarget) (k : ErrKind) : State :=
  match at_ with
  | .scratch t a => s.modTile t fun t => { t with sp := t.sp.strike (a % Config.spSize / 8) k }
  | .code t a => s.modTile t fun t => { t with code := t.code.strike (a % Config.codeSize / 8) k }
  | .taper t a => s.modTile t fun t => { t with tape := t.tape.strike (a % Config.taperSize / 8) k }
  | .dram a => { s with dram := s.dram.strike (a % Config.dpaEnd / 8) k }
  | .host a => { s with host := s.host.strike (a / 8) k }
  | .sram n a => s.modLantern n fun l => { l with sram := l.sram.strike (a % Config.sramSize / 8) k }
  | .array t e => s.modTile t fun t =>
    { t with residues := t.residues.filter (fun x => !(x.z == e.z && x.step == e.step && x.row == e.row && x.col == e.col && x.slice == e.slice)) ++ [e] }

def execSoftError (at_ : ErrTarget) (kind : ErrKind) (s : State) : Host.Outcome State Fault Refusal := .next (s.strike at_ kind)

/-- CLUSTER_SLIP (R344): the cluster's clock gains or loses reference cycles. DEDUCED, log entry 75. -/
def execClusterSlip (r c : Nat) (cycles : Int) (s : State) : Host.Outcome State Fault Refusal :=
  .next (s.modCluster r c fun k => { k with slip := k.slip + cycles })

end Sys2Proof.Machine
end

