-- ==== Sys2Proof/Machine/Dispatch.lean ====
section
/-! DEFINITION. The meaning of each instruction and event: one arm for each constructor of `Instr`. -/

namespace Sys2Proof.Machine

def exec (i : Instr) (s : State) : Host.Outcome State Fault Refusal :=
  match i with
  | .nop g => Sys2Proof.Machine.execNop g s
  | .add g d a b => Sys2Proof.Machine.execAdd g d a b s
  | .sub g d a b => Sys2Proof.Machine.execSub g d a b s
  | .and g d a b => Sys2Proof.Machine.execAnd g d a b s
  | .or g d a b => Sys2Proof.Machine.execOr g d a b s
  | .xor g d a b => Sys2Proof.Machine.execXor g d a b s
  | .shl g d a b => Sys2Proof.Machine.execShl g d a b s
  | .shr g d a b => Sys2Proof.Machine.execShr g d a b s
  | .sra g d a b => Sys2Proof.Machine.execSra g d a b s
  | .min g d a b => Sys2Proof.Machine.execMin g d a b s
  | .max g d a b => Sys2Proof.Machine.execMax g d a b s
  | .minu g d a b => Sys2Proof.Machine.execMinu g d a b s
  | .maxu g d a b => Sys2Proof.Machine.execMaxu g d a b s
  | .mul g d a b => Sys2Proof.Machine.execMul g d a b s
  | .mulh g d a b => Sys2Proof.Machine.execMulh g d a b s
  | .mulhu g d a b => Sys2Proof.Machine.execMulhu g d a b s
  | .div g d a b => Sys2Proof.Machine.execDiv g d a b s
  | .divu g d a b => Sys2Proof.Machine.execDivu g d a b s
  | .rem g d a b => Sys2Proof.Machine.execRem g d a b s
  | .remu g d a b => Sys2Proof.Machine.execRemu g d a b s
  | .addi g d a imm => Sys2Proof.Machine.execAddi g d a imm s
  | .andi g d a imm => Sys2Proof.Machine.execAndi g d a imm s
  | .ori g d a imm => Sys2Proof.Machine.execOri g d a imm s
  | .xori g d a imm => Sys2Proof.Machine.execXori g d a imm s
  | .shli g d a imm => Sys2Proof.Machine.execShli g d a imm s
  | .shri g d a imm => Sys2Proof.Machine.execShri g d a imm s
  | .srai g d a imm => Sys2Proof.Machine.execSrai g d a imm s
  | .li g d imm => Sys2Proof.Machine.execLi g d imm s
  | .lis g d imm => Sys2Proof.Machine.execLis g d imm s
  | .sel q d a b => Sys2Proof.Machine.execSel q d a b s
  | .clz g d a => Sys2Proof.Machine.execClz g d a s
  | .popc g d a => Sys2Proof.Machine.execPopc g d a s
  | .cmp g k c a b => Sys2Proof.Machine.execCmp g k c a b s
  | .cmpi g k c a imm => Sys2Proof.Machine.execCmpi g k c a imm s
  | .plog g k op x y => Sys2Proof.Machine.execPlog g k op x y s
  | .pbt g b imm => Sys2Proof.Machine.execPbt g b imm s
  | .pbr g b a => Sys2Proof.Machine.execPbr g b a s
  | .br g b => Sys2Proof.Machine.execBr g b s
  | .call g b => Sys2Proof.Machine.execCall g b s
  | .ret g => Sys2Proof.Machine.execRet g s
  | .jal g b imm => Sys2Proof.Machine.execJal g b imm s
  | .jr g b => Sys2Proof.Machine.execJr g b s
  | .loop g a n => Sys2Proof.Machine.execLoop g a n s
  | .ldB g d a imm => Sys2Proof.Machine.execLdB g d a imm s
  | .ldH g d a imm => Sys2Proof.Machine.execLdH g d a imm s
  | .ldW g d a imm => Sys2Proof.Machine.execLdW g d a imm s
  | .ldD g d a imm => Sys2Proof.Machine.execLdD g d a imm s
  | .ldBU g d a imm => Sys2Proof.Machine.execLdBU g d a imm s
  | .ldHU g d a imm => Sys2Proof.Machine.execLdHU g d a imm s
  | .ldWU g d a imm => Sys2Proof.Machine.execLdWU g d a imm s
  | .stB g d a imm => Sys2Proof.Machine.execStB g d a imm s
  | .stH g d a imm => Sys2Proof.Machine.execStH g d a imm s
  | .stW g d a imm => Sys2Proof.Machine.execStW g d a imm s
  | .stD g d a imm => Sys2Proof.Machine.execStD g d a imm s
  | .atomAdd g d a b => Sys2Proof.Machine.execAtomAdd g d a b s
  | .atomMin g d a b => Sys2Proof.Machine.execAtomMin g d a b s
  | .atomMax g d a b => Sys2Proof.Machine.execAtomMax g d a b s
  | .atomAnd g d a b => Sys2Proof.Machine.execAtomAnd g d a b s
  | .atomOr g d a b => Sys2Proof.Machine.execAtomOr g d a b s
  | .atomXor g d a b => Sys2Proof.Machine.execAtomXor g d a b s
  | .atomSwap g d a b => Sys2Proof.Machine.execAtomSwap g d a b s
  | .cas g d a b => Sys2Proof.Machine.execCas g d a b s
  | .mfs g d idx => Sys2Proof.Machine.execMfs g d idx s
  | .mts g idx a => Sys2Proof.Machine.execMts g idx a s
  | .vnop g => Sys2Proof.Machine.execVnop g s
  | .vadd g t m d a b => Sys2Proof.Machine.execVadd g t m d a b s
  | .vsub g t m d a b => Sys2Proof.Machine.execVsub g t m d a b s
  | .vmul g t m d a b => Sys2Proof.Machine.execVmul g t m d a b s
  | .vfma g t m d a b => Sys2Proof.Machine.execVfma g t m d a b s
  | .vmin g t m d a b => Sys2Proof.Machine.execVmin g t m d a b s
  | .vmax g t m d a b => Sys2Proof.Machine.execVmax g t m d a b s
  | .vabs g t m d a => Sys2Proof.Machine.execVabs g t m d a s
  | .vneg g t m d a => Sys2Proof.Machine.execVneg g t m d a s
  | .vadds g t m d a b => Sys2Proof.Machine.execVadds g t m d a b s
  | .vsubs g t m d a b => Sys2Proof.Machine.execVsubs g t m d a b s
  | .vand g t m d a b => Sys2Proof.Machine.execVand g t m d a b s
  | .vor g t m d a b => Sys2Proof.Machine.execVor g t m d a b s
  | .vxor g t m d a b => Sys2Proof.Machine.execVxor g t m d a b s
  | .vshl g t m d a b => Sys2Proof.Machine.execVshl g t m d a b s
  | .vshr g t m d a b => Sys2Proof.Machine.execVshr g t m d a b s
  | .vsra g t m d a b => Sys2Proof.Machine.execVsra g t m d a b s
  | .vcmpeq g t m k a b => Sys2Proof.Machine.execVcmpeq g t m k a b s
  | .vcmpne g t m k a b => Sys2Proof.Machine.execVcmpne g t m k a b s
  | .vcmplt g t m k a b => Sys2Proof.Machine.execVcmplt g t m k a b s
  | .vcmple g t m k a b => Sys2Proof.Machine.execVcmple g t m k a b s
  | .vsel g t m d a b => Sys2Proof.Machine.execVsel g t m d a b s
  | .vcvt g t m d a st => Sys2Proof.Machine.execVcvt g t m d a st s
  | .vexp2 g t m d a => Sys2Proof.Machine.execVexp2 g t m d a s
  | .vlog2 g t m d a => Sys2Proof.Machine.execVlog2 g t m d a s
  | .vrcp g t m d a => Sys2Proof.Machine.execVrcp g t m d a s
  | .vrsq g t m d a => Sys2Proof.Machine.execVrsq g t m d a s
  | .vsqrt g t m d a => Sys2Proof.Machine.execVsqrt g t m d a s
  | .vred g t m k a fn => Sys2Proof.Machine.execVred g t m k a fn s
  | .vredx g t m k a fn => Sys2Proof.Machine.execVredx g t m k a fn s
  | .vscan g t m d a k => Sys2Proof.Machine.execVscan g t m d a k s
  | .vcomp g t m d a k => Sys2Proof.Machine.execVcomp g t m d a k s
  | .vexpd g t m d a k => Sys2Proof.Machine.execVexpd g t m d a k s
  | .vperm g t m d a b => Sys2Proof.Machine.execVperm g t m d a b s
  | .vbcast g t m d k => Sys2Proof.Machine.execVbcast g t m d k s
  | .vmov g t m d a => Sys2Proof.Machine.execVmov g t m d a s
  | .viota g t m d k => Sys2Proof.Machine.execViota g t m d k s
  | .vany g t m k a => Sys2Proof.Machine.execVany g t m k a s
  | .vall g t m k a => Sys2Proof.Machine.execVall g t m k a s
  | .vpopm g t m k j => Sys2Proof.Machine.execVpopm g t m k j s
  | .vmask g t m k a => Sys2Proof.Machine.execVmask g t m k a s
  | .vrand g t m d k1 k2 => Sys2Proof.Machine.execVrand g t m d k1 k2 s
  | .vsrt g t m d a => Sys2Proof.Machine.execVsrt g t m d a s
  | .vmrg g t m d a b => Sys2Proof.Machine.execVmrg g t m d a b s
  | .vgath g t m d a b => Sys2Proof.Machine.execVgath g t m d a b s
  | .vscat g t m d a b => Sys2Proof.Machine.execVscat g t m d a b s
  | .mnop g => Sys2Proof.Machine.execMnop g s
  | .mclr g z => Sys2Proof.Machine.execMclr g z s
  | .mmul g z pair ha hb n => Sys2Proof.Machine.execMmul g z pair ha hb n s
  | .mmulb g z grp ha hb a => Sys2Proof.Machine.execMmulb g z grp ha hb a s
  | .mout g z pair h => Sys2Proof.Machine.execMout g z pair h s
  | .moutr g z pair h => Sys2Proof.Machine.execMoutr g z pair h s
  | .maddr g z pair h => Sys2Proof.Machine.execMaddr g z pair h s
  | .mpack g hp he n => Sys2Proof.Machine.execMpack g hp he n s
  | .munpk g he hp n => Sys2Proof.Machine.execMunpk g he hp n s
  | .mstat g z h => Sys2Proof.Machine.execMstat g z h s
  | .cnop g => Sys2Proof.Machine.execCnop g s
  | .cpyin g h => Sys2Proof.Machine.execCpyin g h s
  | .cpyout g h => Sys2Proof.Machine.execCpyout g h s
  | .cpyloc g hd hs => Sys2Proof.Machine.execCpyloc g hd hs s
  | .stage g h c a => Sys2Proof.Machine.execStage g h c a s
  | .sadv g w p => Sys2Proof.Machine.execSadv g w p s
  | .publish g => Sys2Proof.Machine.execPublish g s
  | .catom g v o c => Sys2Proof.Machine.execCatom g v o c s
  | .cfill g h a => Sys2Proof.Machine.execCfill g h a s
  | .knop g => Sys2Proof.Machine.execKnop g s
  | .agset g n p c => Sys2Proof.Machine.execAgset g n p c s
  | .agstr g n x => Sys2Proof.Machine.execAgstr g n x s
  | .agout g d n => Sys2Proof.Machine.execAgout g d n s
  | .agadd g n a => Sys2Proof.Machine.execAgadd g n a s
  | .agrd g d n w => Sys2Proof.Machine.execAgrd g d n w s
  | .agblk g n w => Sys2Proof.Machine.execAgblk g n w s
  | .hld g h a => Sys2Proof.Machine.execHld g h a s
  | .hst g h a => Sys2Proof.Machine.execHst g h a s
  | .hsetf g h f a => Sys2Proof.Machine.execHsetf g h f a s
  | .hgetf g d f h => Sys2Proof.Machine.execHgetf g d f h s
  | .scl g k a => Sys2Proof.Machine.execScl g k a s
  | .ymset g n a => Sys2Proof.Machine.execYmset g n a s
  | .xmset g n a => Sys2Proof.Machine.execXmset g n a s
  | .vmset g n a => Sys2Proof.Machine.execVmset g n a s
  | .vmget g d n => Sys2Proof.Machine.execVmget g d n s
  | .mkget g d n => Sys2Proof.Machine.execMkget g d n s
  | .lnop g => Sys2Proof.Machine.execLnop g s
  | .route g e c => Sys2Proof.Machine.execRoute g e c s
  | .rtset g e a => Sys2Proof.Machine.execRtset g e a s
  | .send g a k => Sys2Proof.Machine.execSend g a k s
  | .recv g a k chk lnk => Sys2Proof.Machine.execRecv g a k chk lnk s
  | .ratom g c o => Sys2Proof.Machine.execRatom g c o s
  | .rld g c => Sys2Proof.Machine.execRld g c s
  | .tagset g tag sel => Sys2Proof.Machine.execTagset g tag sel s
  | .xnop g => Sys2Proof.Machine.execXnop g s
  | .trap g n => Sys2Proof.Machine.execTrap g n s
  | .rdcyc g d => Sys2Proof.Machine.execRdcyc g d s
  | .rdwall g d => Sys2Proof.Machine.execRdwall g d s
  | .waitsImm g n => Sys2Proof.Machine.execWaitsImm g n s
  | .waitsReg g a => Sys2Proof.Machine.execWaitsReg g a s
  | .waitw g j => Sys2Proof.Machine.execWaitw g j s
  | .realign g => Sys2Proof.Machine.execRealign g s
  | .clkdiv g dc dm dv dk => Sys2Proof.Machine.execClkdiv g dc dm dv dk s
  | .pswitch g n => Sys2Proof.Machine.execPswitch g n s
  | .fidset g level => Sys2Proof.Machine.execFidset g level s
  | .wchk g w p lead => Sys2Proof.Machine.execWchk g w p lead s
  | .repb g n => Sys2Proof.Machine.execRepb g n s
  | .trec g => Sys2Proof.Machine.execTrec g s
  | .tend g => Sys2Proof.Machine.execTend g s
  | .halt g => Sys2Proof.Machine.execHalt g s
  | .bankpwr g b st => Sys2Proof.Machine.execBankpwr g b st s
  | .launch g d a => Sys2Proof.Machine.execLaunch g d a s
  | .evwait g d e v => Sys2Proof.Machine.execEvwait g d e v s
  | .evsig g op e v => Sys2Proof.Machine.execEvsig g op e v s
  | .lda g d a => Sys2Proof.Machine.execLda g d a s
  | .stl g d a => Sys2Proof.Machine.execStl g d a s
  | .fence g t => Sys2Proof.Machine.execFence g t s
  | .clrun g d a b => Sys2Proof.Machine.execClrun g d a b s
  | .preempt g d a b => Sys2Proof.Machine.execPreempt g d a b s
  | .resume g d a b => Sys2Proof.Machine.execResume g d a b s
  | .kill g d a => Sys2Proof.Machine.execKill g d a s
  | .lease g d a b => Sys2Proof.Machine.execLease g d a b s
  | .eret g => Sys2Proof.Machine.execEret g s
  | .wread g a c x => Sys2Proof.Machine.execWread g a c x s
  | .lanternLoadReturn n k => Sys2Proof.Machine.execLanternLoadReturn n k s
  | .evwaitWake n => Sys2Proof.Machine.execEvwaitWake n s
  | .resultLands a => Sys2Proof.Machine.execResultLands a s
  | .matrixStepLands t => Sys2Proof.Machine.execMatrixStepLands t s
  | .waitsExpiry t => Sys2Proof.Machine.execWaitsExpiry t s
  | .waitwRelease r => Sys2Proof.Machine.execWaitwRelease r s
  | .realignHoldEnd r c => Sys2Proof.Machine.execRealignHoldEnd r c s
  | .bankWake t => Sys2Proof.Machine.execBankWake t s
  | .routeActExpiry t => Sys2Proof.Machine.execRouteActExpiry t s
  | .meshWordArrival t => Sys2Proof.Machine.execMeshWordArrival t s
  | .remoteAccessService t => Sys2Proof.Machine.execRemoteAccessService t s
  | .seamBufferRelease t => Sys2Proof.Machine.execSeamBufferRelease t s
  | .windowCheckEval t w => Sys2Proof.Machine.execWindowCheckEval t w s
  | .regionFreeze r => Sys2Proof.Machine.execRegionFreeze r s
  | .regionRelease r => Sys2Proof.Machine.execRegionRelease r s
  | .faultHalt r => Sys2Proof.Machine.execFaultHalt r s
  | .retry r => Sys2Proof.Machine.execRetry r s
  | .copyLanding t k => Sys2Proof.Machine.execCopyLanding t k s
  | .slotFillLands t w slot => Sys2Proof.Machine.execSlotFillLands t w slot s
  | .slotDrainLands t w slot => Sys2Proof.Machine.execSlotDrainLands t w slot s
  | .publishMerge r => Sys2Proof.Machine.execPublishMerge r s
  | .publishPropagated r => Sys2Proof.Machine.execPublishPropagated r s
  | .lamplighterSample r => Sys2Proof.Machine.execLamplighterSample r s
  | .grantLatch r c => Sys2Proof.Machine.execGrantLatch r c s
  | .leaseExpiry id => Sys2Proof.Machine.execLeaseExpiry id s
  | .energyUpdate nj => Sys2Proof.Machine.execEnergyUpdate nj s
  | .preemptEscalate r => Sys2Proof.Machine.execPreemptEscalate r s
  | .saveComplete id => Sys2Proof.Machine.execSaveComplete id s
  | .schedulerDecision => Sys2Proof.Machine.execSchedulerDecision s
  | .launchLoad id => Sys2Proof.Machine.execLaunchLoad id s
  | .regionStart r => Sys2Proof.Machine.execRegionStart r s
  | .replayCmdIssue t => Sys2Proof.Machine.execReplayCmdIssue t s
  | .tapeEndResume t => Sys2Proof.Machine.execTapeEndResume t s
  | .launchComplete r => Sys2Proof.Machine.execLaunchComplete r s
  | .completionEvent id => Sys2Proof.Machine.execCompletionEvent id s
  | .tapeSetCopy id => Sys2Proof.Machine.execTapeSetCopy id s
  | .qtailWrite q v => Sys2Proof.Machine.execQtailWrite q v s
  | .queueEnable q => Sys2Proof.Machine.execQueueEnable q s
  | .queueDisable q => Sys2Proof.Machine.execQueueDisable q s
  | .queueRestart q => Sys2Proof.Machine.execQueueRestart q s
  | .launchEntry q => Sys2Proof.Machine.execLaunchEntry q s
  | .waitEntry q => Sys2Proof.Machine.execWaitEntry q s
  | .signalEntry q => Sys2Proof.Machine.execSignalEntry q s
  | .skipif q => Sys2Proof.Machine.execSkipif q s
  | .jump q => Sys2Proof.Machine.execJump q s
  | .callEntry q => Sys2Proof.Machine.execCallEntry q s
  | .returnEntry q => Sys2Proof.Machine.execReturnEntry q s
  | .copyEntry q => Sys2Proof.Machine.execCopyEntry q s
  | .copyComplete k => Sys2Proof.Machine.execCopyComplete k s
  | .witnessEntry q => Sys2Proof.Machine.execWitnessEntry q s
  | .endEntry q => Sys2Proof.Machine.execEndEntry q s
  | .entryUnblock q => Sys2Proof.Machine.execEntryUnblock q s
  | .attestReportDone => Sys2Proof.Machine.execAttestReportDone s
  | .linkRetryExhausted p => Sys2Proof.Machine.execLinkRetryExhausted p s
  | .ptpSyncTimeout => Sys2Proof.Machine.execPtpSyncTimeout s
  | .powerOnBoot => Sys2Proof.Machine.execPowerOnBoot s
  | .lanternStorePerformed n k => Sys2Proof.Machine.execLanternStorePerformed n k s
  | .hostEventWrite j v => Sys2Proof.Machine.execHostEventWrite j v s
  | .hostBar2Write off data => Sys2Proof.Machine.execHostBar2Write off data s
  | .hostBar2Read off n => Sys2Proof.Machine.execHostBar2Read off n s
  | .lanternStart n => Sys2Proof.Machine.execLanternStart n s
  | .lanternStop n => Sys2Proof.Machine.execLanternStop n s
  | .featureCommit => Sys2Proof.Machine.execFeatureCommit s
  | .pwrcapWrite level => Sys2Proof.Machine.execPwrcapWrite level s
  | .attestRequest => Sys2Proof.Machine.execAttestRequest s
  | .registerWrite off v => Sys2Proof.Machine.execRegisterWrite off v s
  | .linkUp p peer delay => Sys2Proof.Machine.execLinkUp p peer delay s
  | .linkDown p => Sys2Proof.Machine.execLinkDown p s
  | .linkFlitReceive p flit => Sys2Proof.Machine.execLinkFlitReceive p flit s
  | .linkResend p seq => Sys2Proof.Machine.execLinkResend p seq s
  | .linkLockLoss p => Sys2Proof.Machine.execLinkLockLoss p s
  | .ptpSync offsetPs => Sys2Proof.Machine.execPtpSync offsetPs s
  | .coolantChange flow inlet => Sys2Proof.Machine.execCoolantChange flow inlet s
  | .inputPowerChange level => Sys2Proof.Machine.execInputPowerChange level s
  | .junctionOvertemp => Sys2Proof.Machine.execJunctionOvertemp s
  | .thermalShutdown => Sys2Proof.Machine.execThermalShutdown s
  | .functionLevelReset => Sys2Proof.Machine.execFunctionLevelReset s
  | .firmwareImageVerify image version index => Sys2Proof.Machine.execFirmwareImageVerify image version index s
  | .invalidBundle => Sys2Proof.Machine.execInvalidBundle s
  | .softError at_ kind => Sys2Proof.Machine.execSoftError at_ kind s
  | .clusterSlip r c cycles => Sys2Proof.Machine.execClusterSlip r c cycles s

end Sys2Proof.Machine
end

