-- ==== Sys2Proof/Machine/Cycle.lean ====
section
/-! DEFINITION. Issuing a bundle (R35, R39 to R41, R100, R278, R285), and what happens in a wall cycle, in the model's order
(R3, R4, R24 to R28, R40, R99, R186; log entry 4). -/

namespace Sys2Proof.Machine

/-! ## The slots of a bundle -/

/-- A slot to issue: its position, whether it is the second V or C of its bundle, its instruction, and the operand values
of a tape command. -/
structure SlotRun where
  slot : Nat
  second : Bool
  insn : Instr
  imms : Option (List Word)
  deriving DecidableEq, Repr

/-- The state in which one slot of the bundle issues. -/
def State.atSlot (s : State) (x : SlotRun) : State := { s with slot := x.slot, second := x.second, imms := x.imms }

/-- The state in which an agent's bundle issues. -/
def State.forAgent (s : State) (a : Agent) : State :=
  { s with focus := a, slot := 0, second := false, trap := none, imms := none }

/-- The slots of a bundle in order. A fault raised at issue leaves no effect of the bundle but the fault itself, what its
reads have counted (R349), and what the faulting slot did if it is the first (a TRAP records its command, R271). DEDUCED,
log entry 11. -/
def runSlots (s0 : State) : (first : Bool) → List SlotRun → State → Host.Outcome State Fault Refusal
  | _, [], s => .next s
  | first, x :: xs, s =>
    match exec x.insn (s.atSlot x) with
    | .next t =>
      match t.trap with
      | none => runSlots s0 false xs t
      | some f => .next (if first then t else (s0.counted t).takeFault f)
    | .fault f => .fault f
    | .refused r => .refused r

/-- What follows the slots of a bundle: nothing after a fault, else `done`. -/
def afterSlots (o : Host.Outcome State Fault Refusal) (done : State → State) : Host.Outcome State Fault Refusal :=
  match o with
  | .next t => .next (if t.trap.isSome then t else done t)
  | .fault f => .fault f
  | .refused r => .refused r

/-- Numbers the slots of a fetched bundle; `v` and `c` say whether a V or C slot came before. -/
def slotsFrom : (n : Nat) → (v c : Bool) → List (Nat × Instr) → List SlotRun
  | _, _, _, [] => []
  | n, v, c, (w, i) :: rest =>
    let cls := slotClass w
    ⟨n, (cls == 1 && v) || (cls == 3 && c), i, none⟩ :: slotsFrom (n + 1) (v || cls == 1) (c || cls == 3) rest

/-! ## A fetched bundle of a tile -/

/-- The recorder and the core of a tile once the bundle at its pc has issued: the switch point is closed, iterations and
levels of compression end (R273), and the next bundle is chosen (R130). -/
def Tile.afterBundle (t : Tile) (l : Option Launch) (e : Env) (len : Nat) : Tile :=
  let t0 := match l with
    | some l => t.closePoint l e.scy e.dc
    | none => t
  let c := t0.core
  let opened : Bool := match c.ctl with
    | some (.loop _) => true
    | _ => false
  let left := c.xfer.any fun x => x.left ≤ 1
  let back := !left && (loopNext c.loopDepth c.pc c.loops).1.isSome
  let c1 := c.advance c.pc len
  let kept := c1.loops.length - opened.toNat
  let d := t0.rec_.depth
  let p : Stamp := ⟨e.scy, c.pc⟩
  let t1 : Tile :=
    if d ≠ 0 ∧ kept < d then (if left then t0 else t0.endIteration p).closeLevel p
    else if d ≠ 0 ∧ back ∧ kept = d then t0.endIteration p
    else t0
  let t2 : Tile := { t1 with core := c1, rec_ := { t1.rec_ with span := t1.rec_.open_ } }
  if opened then t2.openLevel p c1.loops.length else t2

/-- The bundle at the pc of tile i issues (R39, R41). -/
def State.issueFetched (s : State) (i : Nat) (t : Tile) : Host.Outcome State Fault Refusal :=
  let s0 := s.forAgent (.tile i)
  let s1 := s0.modTile i fun t => t.countCs false (fetchCorrected t.code .tile t.core.pc)
  match fetchBundle t.code .tile t.core.target t.core.pc with
  | .error (code, addr, slot) => .next (s1.takeFault ⟨code, word addr, slot⟩)
  | .ok ws =>
    let len := 4 * ws.length
    let e := s.tileEnv t
    afterSlots (runSlots s1 true (slotsFrom 0 false false ws) s1) fun u =>
      u.modTile i fun t => t.afterBundle (u.launchOf t.region) e len

/-! ## The commands of a tape (R278) -/

/-- The commands of the present cycle as slots; the X NOPs that fill gaps do nothing. -/
def replaySlots (cs : List ReplayCmd) : List SlotRun :=
  cs.filterMap fun c => match decodeSlot c.word.toNat with
    | .ok i => some ⟨c.slot, c.slot == 2 || c.slot == 5, i, some c.imms⟩
    | .error _ => none

/-- The checks of R39 on the commands of one cycle: the fault, the record's offset and the slot.
DEDUCED, log entry 18. -/
def replayBad (cs : List ReplayCmd) : Option Trap :=
  let ws := cs.map fun c => c.word.toNat
  let bad : Option (Nat × Nat) :=
    match firstBad (fun w => slotClass w == 7) ws 0, compositionBad .tile ws,
      firstBad (fun w => !opAssigned (slotClass w) (slotOp w)) ws 0,
      firstBad (fun w => !opAvailable .tile (slotClass w) (slotOp w)) ws 0, firstBad (slotBadOperand .tile) ws 0 with
    | some i, _, _, _, _ => some (0x0101, i)
    | none, some i, _, _, _ => some (0x0102, i)
    | none, none, some i, _, _ => some (0x0103, i)
    | none, none, none, some i, _ => some (0x0106, i)
    | none, none, none, none, some i => some (0x0104, i)
    | none, none, none, none, none => none
  bad.map fun x => ⟨x.1, word ((cs[x.2]?.map (·.off)).getD 0), (cs[x.2]?.map (·.slot)).getD 0⟩

/-- The commands that tile i's tape gives the present cycle issue as one bundle. -/
def State.issueReplayed (s : State) (i : Nat) (t : Tile) : Host.Outcome State Fault Refusal :=
  let s0 := s.forAgent (.tile i)
  let scy := (s.tileEnv t).scy
  let cs := t.rep.queue.filter fun c => c.at_ ≤ scy && c.word != 0x6000_0000
  let drop (u : State) : State :=
    { u with imms := none }.modTile i fun t => { t with rep := { t.rep with queue := t.rep.queue.filter fun c => scy < c.at_ } }
  match replayBad cs with
  | some f => .next (s0.takeFault f)
  | none => afterSlots (runSlots s0 true (replaySlots cs) s0) drop

/-- What the ports and the mesh of tile i do in a reference cycle in which it issues nothing; sums of the array, which
reach no port, are left out. -/
def State.idleCycle (s : State) (i : Nat) : State :=
  let sums (x : MTask) : Bool := match x.act with
    | .steps _ => true
    | .land _ => true
    | _ => false
  let s1 := s.modTile i fun t => { t with act := t.act.map fun n => n - 1, mtasks := t.mtasks.filter (!sums ·) }
  (((((s1.runAccesses i).runServices i).landResults (.tile i)).runMatrix i).releaseSeam i).switchTile i

/-- The next reference cycle of a region as it stands, with no bundle in it. -/
def State.idleRegion (s : State) (region : Nat) : State :=
  let runs (t : Tile) : Bool := t.region == region && (s.cluster t).hold == 0
  let busy (t : Tile) : Bool := !(t.accs.isEmpty && t.wbuf.isEmpty && t.mtasks.isEmpty && t.arrivals.isEmpty && t.act.toList.all (· == 0))
  let s1 := s.modRegion region fun r => { r with clusters := r.clusters.map fun c =>
    if 0 < c.hold then { c with hold := c.hold - 1 } else { c with scy := c.scy + 1, clk := c.clk.tick (c.scy + 1) } }
  ((s.tiles.zipIdx.filter fun x => runs x.1 && busy x.1).map (·.2)).foldl State.idleCycle s1

/-- Whether a collision comes at tile i's port within n reference cycles. -/
def State.willCollide (s : State) (i : Nat) : (n : Nat) → Bool
  | 0 => false
  | n + 1 =>
    let u := ((s.tile? i).map fun t => s.idleRegion t.region).getD s
    (u.tile? i).any (fun t => t.halt.valid && t.halt.code == 0x0203) || u.willCollide i n

/-- The reference cycles left of the present control cycle. -/
def Cluster.ctlLeft (k : Cluster) : Nat := k.clk.div.ctl - 1 - (k.scy - k.clk.org) % k.clk.div.ctl

/-- Tile i issues, if it does in the present cycle: commands at any cycle, bundles at the start of a control cycle; nothing
issues in a control cycle that holds a collision, before it either (R186). DEDUCED, log entry 44. -/
def State.issueTile (s : State) (i : Nat) : Host.Outcome State Fault Refusal :=
  match s.tile? i with
  | none => .next s
  | some t =>
    let k := s.cluster t
    if t.run ≠ .running then .next s
    else if s.willCollide i k.ctlLeft then .next s
    else if t.rep.active then s.issueReplayed i t
    else if (k.scy - k.clk.org) % k.clk.div.ctl ≠ 0 then .next s
    else s.issueFetched i t

/-! ## A bundle of a Lantern (R38, R100, R285, R301) -/

/-- The S operands, predicates and b registers that an instruction of a Lantern reads, its guard aside.
DEDUCED, log entry 14. -/
def lanternReads : Instr → List SOp × List (Fin 16) × List (Fin 4)
  | .add _ _ a b | .sub _ _ a b | .and _ _ a b | .or _ _ a b | .xor _ _ a b | .shl _ _ a b | .shr _ _ a b | .sra _ _ a b
  | .min _ _ a b | .max _ _ a b | .minu _ _ a b | .maxu _ _ a b | .mul _ _ a b | .mulh _ _ a b | .mulhu _ _ a b
  | .div _ _ a b | .divu _ _ a b | .rem _ _ a b | .remu _ _ a b | .sel _ _ a b | .cmp _ _ _ a b
  | .atomAdd _ _ a b | .atomMin _ _ a b | .atomMax _ _ a b | .atomAnd _ _ a b | .atomOr _ _ a b | .atomXor _ _ a b
  | .atomSwap _ _ a b | .evwait _ _ a b | .evsig _ _ a b | .clrun _ _ a b | .preempt _ _ a b | .resume _ _ a b
  | .lease _ _ a b => ([a, b], [], [])
  | .addi _ _ a _ | .andi _ _ a _ | .ori _ _ a _ | .xori _ _ a _ | .shli _ _ a _ | .shri _ _ a _ | .srai _ _ a _
  | .cmpi _ _ _ a _ | .clz _ _ a | .popc _ _ a | .loop _ a _ | .pbr _ _ a | .mts _ _ a | .lis _ a _
  | .ldB _ _ a _ | .ldBU _ _ a _ | .ldH _ _ a _ | .ldHU _ _ a _ | .ldW _ _ a _ | .ldWU _ _ a _ | .ldD _ _ a _
  | .launch _ _ a | .lda _ _ a | .kill _ _ a => ([a], [], [])
  | .stB _ d a _ | .stH _ d a _ | .stW _ d a _ | .stD _ d a _ | .stl _ d a => ([d, a], [], [])
  | .cas _ d a b | .wread _ d a b => ([d, a, b], [], [])
  | .plog _ _ _ x y => ([], [x, y], [])
  | .br _ b | .call _ b | .jr _ b => ([], [], [b])
  | .ret _ => ([], [], [3])
  | _ => ([], [], [])

/-- The guard field of a slot instruction, which SEL reads as its predicate (R35). -/
def guardOf (i : Instr) : Fin 16 := match encodeFields i with
  | some (_, _, g, _) => Fin.ofNat 16 g
  | none => 0

/-- The S operand that a device access will write. -/
def DevKind.dest : DevKind → Option SOp
  | .load d _ => some d
  | .store _ _ => none

/-- Whether a result is in flight to a register that the instruction reads (R100). -/
def Lantern.inFlight (l : Lantern) (i : Instr) : Bool :=
  let (ss, qs, bs) := lanternReads i
  let q := guardOf i :: qs
  (l.core.lands.any fun x => match x.eff with
    | .reg d _ => ss.contains d
    | .pair k _ => q.any fun n => n.val / 2 == k.val
    | .breg n _ => bs.contains n
    | _ => false) || l.dev.any fun x => x.kind.dest.any fun d => ss.contains d || ss.contains .l

/-- The wait of an EVWAIT slot that issues, with the counter if its event is there (R301). -/
def State.waitOf (s : State) (l : Lantern) (slot : Nat) : Instr → Option LWait
  | .evwait g _ e v =>
    let j := (l.core.readS e).val.toNat
    let b := (l.core.readS v).val
    if l.core.suppressed || !(l.core.readQ g).val || 1024 ≤ j then none
    else some ⟨slot, j, b, if b.toNat ≤ (s.event j).toNat then some (s.event j) else none, l.cyc⟩
  | _ => none

/-- Whether a slot may update an event counter (R292). -/
def mayUpdate : Instr → Bool
  | .evsig .. | .stB .. | .stH .. | .stW .. | .stD .. | .stl .. => true
  | _ => false

/-- Whether a bundle with waits goes on holding: an event has not come, or the bundle may update a counter in the cycle in
which it has read one, whose readers see every update of it (R292). DEDUCED, log entry 88. -/
def Lantern.holds (l : Lantern) (waits : List LWait) (ws : List (Nat × Instr)) : Bool :=
  waits.any fun w => w.got.isNone || (w.cyc == l.cyc && ws.any fun x => mayUpdate x.2)

/-- A Lantern once a bundle of some bytes has issued; the transfer of an ERET clears EXC (R306). -/
def Lantern.afterBundle (l : Lantern) (len : Nat) : Lantern :=
  let back : Bool := l.core.xfer.any fun t => t.kind == .eret && Decidable.decide (t.left ≤ 1)
  { l with core := l.core.advance l.core.pc len, exc := l.exc && !back, waits := [] }

/-- The bundle of Lantern n issues, once no operand is in flight and every event that it waits for has come. -/
def State.issueBundleOf (s : State) (n : Fin 4) (l : Lantern) (ws : List (Nat × Instr)) : Host.Outcome State Fault Refusal :=
  let waits := if l.waits.isEmpty then ws.zipIdx.filterMap fun x => s.waitOf l x.2 x.1.2 else l.waits
  let s0 := (s.forAgent (.lantern n)).modLantern n fun l => { l with waits := waits }
  if l.holds waits ws then .next s0
  else
    afterSlots (runSlots s0 true (slotsFrom 0 false false ws) s0) fun u =>
      u.modLantern n fun l => l.afterBundle (4 * ws.length)

/-- Lantern n issues, if it does in the present cycle. -/
def State.issueLantern (s : State) (n : Fin 4) : Host.Outcome State Fault Refusal :=
  let l := s.lanterns.get n
  if !l.run || l.halted then .next s
  else
    match fetchBundle l.sram .lantern l.core.target l.core.pc with
    | .error (code, addr, slot) => .next ((s.forAgent (.lantern n)).takeFault ⟨code, word addr, slot⟩)
    | .ok ws => if ws.any fun x => l.inFlight x.2 then .next s else s.issueBundleOf n l ws

def State.issueAgent (s : State) : Agent → Host.Outcome State Fault Refusal
  | .tile i => s.issueTile i
  | .lantern n => s.issueLantern n

/-! ## The events of a wall cycle outside the schedules -/

/-- A task if a condition holds. -/
def taskIf (c : Bool) (e : Instr) : List Task := if c then [.event e] else []

/-- What one region may do as a whole in the present wall cycle. -/
def State.regionWall (s : State) (r : Region) : List Task :=
  let late (u : Nat) : Bool := u ≤ s.wcy
  taskIf (r.expiry.any late) (.leaseExpiry r.launch) ++
    taskIf (r.haltReq.isSome || r.phase == .halted) (.faultHalt r.id) ++
    taskIf (r.softReq.isSome) (.preemptEscalate r.id) ++
    taskIf (!r.publishes.isEmpty) (.publishMerge r.id) ++
    taskIf (!r.publishes.isEmpty) (.publishPropagated r.id) ++
    taskIf (s.wcy % 4096 == 0) (.lamplighterSample r.id) ++
    (match r.phase with
      | .loading u => taskIf (late u) (.launchLoad r.launch)
      | .loaded => taskIf true (.regionStart r.id)
      | .armed w => taskIf (late w) (.waitwRelease r.id)
      | .saving _ u => taskIf (late u) (.saveComplete r.launch)
      | .retryWait u => taskIf (late u) (.retry r.id)
      | .ending _ => taskIf true (.launchComplete r.id)
      | .finished _ => taskIf true (.tapeSetCopy r.launch) ++ taskIf true (.launchComplete r.id)
      | _ => [])

/-- What the module does in a wall cycle beside its Lanterns and schedules. `fresh` is false in a cycle whose WCY is read
a second time. -/
def State.wallTasks (s : State) (fresh : Bool) : List Task :=
  let m := s.mod_
  (s.copies.filter fun c => c.ready ≤ s.wcy).map (fun c => .event (.copyComplete c.id)) ++
    s.regions.flatMap s.regionWall ++
    (s.launches.filter fun l => l.evDue).map (fun l => .event (.completionEvent l.id)) ++
    taskIf (fresh && s.wcy % 2500 == 0) (.energyUpdate s.wcy) ++
    taskIf (m.attest.busy.any fun w => w ≤ s.wcy) .attestReportDone ++
    taskIf (!m.freeRun && m.lastSync + syncLimit ≤ s.wcy) .ptpSyncTimeout ++
    ((List.finRange 32).filter fun p =>
      let x := s.ports.get p
      4096 ≤ x.fullFor || x.window.any fun f => 8 ≤ f.2).map (fun p => .event (.linkRetryExhausted p)) ++
    List.replicate m.decisions (.event .schedulerDecision)

/-- What a Lantern may do in a wall cycle before its bundle. -/
def State.lanternTasks (s : State) (n : Fin 4) : List Task :=
  let l := s.lanterns.get n
  (l.dev.filter fun x => x.ready ≤ s.wcy).map (fun x =>
      .event (if x.kind.isStore then .lanternStorePerformed n x.ord else .lanternLoadReturn n x.ord)) ++
    taskIf (!l.core.lands.isEmpty) (.resultLands (.lantern n))

/-- The bundle of a Lantern, after the waits that hold it. -/
def State.lanternIssue (s : State) (n : Fin 4) : List Task :=
  let l := s.lanterns.get n
  taskIf (!l.waits.isEmpty) (.evwaitWake n) ++ (if l.run && !l.halted then [.issue (.lantern n)] else [])

/-- Whether the next bundle of a Lantern holds an EVWAIT that has not read its counter: it reads after the updates of the cycle
(R292). -/
def State.readsEvents (s : State) (n : Fin 4) : Bool :=
  let l := s.lanterns.get n
  if !l.waits.isEmpty then l.waits.any (·.got.isNone) else match fetchBundle l.sram .lantern l.core.target l.core.pc with
    | .ok ws => ws.any fun x => match x.2 with
      | .evwait .. => true
      | _ => false
    | .error _ => false

/-- Whether the present entry of a queue updates an event counter (R292). -/
def State.walkUpdates (s : State) (q : Fin 20) : Bool :=
  match (s.walkQueue q).2 with
  | some (.witnessEntry _) => true
  | some (.signalEntry _) => true
  | _ => false

/-- The walkers of the queues that may have work, in one of their two turns. -/
def State.walkerTasks (s : State) (reads : Bool) : List Task :=
  ((List.finRange 20).filter fun q =>
    let x := s.queues.get q
    x.state == .running || x.state == .blocked).map fun q => .walker q reads

/-! ## The cycle of a region -/

/-- The scratchpad runs that a command reads or writes: first byte and length. -/
def Cmd.scrRuns (c : Cmd) : List (Int × Nat) :=
  let n := runLen c.dims
  match c.kind with
  | .cfill _ => []
  | .catom _ _ ret => if ret.isSome then [(c.sbase, 8)] else []
  | .cpyloc src => (runs c.dims).flatMap fun r => [(c.sbase + r.1, n), ((src : Int) + r.2, n)]
  | _ => (runs c.dims).map fun r => (c.sbase + r.1, n)

/-- Whether an access of tile t that the present reference cycle makes uses a line of a command (R187). -/
def State.meetsAccess (s : State) (t : Tile) (c : Cmd) : Bool :=
  let e := s.tileEnv t
  let lines := (t.accs.filter fun x => e.reached x.due).flatMap fun x => x.op.touches.map fun a => (a / 64 : Nat)
  !lines.isEmpty && c.scrRuns.any fun r => lines.any fun l => Decidable.decide (r.1 / 64 ≤ (l : Int) ∧ (l : Int) ≤ (r.1 + r.2 - 1) / 64)

/-- The commands of tile i that the engine may land; `run` says that the schedule makes its accesses in this cycle.
DESIGN CHOICE, log entry 29. -/
def State.copyTasks (s : State) (i : Nat) (t : Tile) (run : Bool) : List Task :=
  let cs := t.cmds.filter fun c => c.ready ≤ s.wcy && !(run && s.meetsAccess t c)
  if cs.isEmpty then []
  else .visible i :: cs.map fun c => .event (match c.kind with
    | .fill p => .slotFillLands i c.win p
    | .drain p => .slotDrainLands i c.win p
    | _ => .copyLanding i c.ord)

/-- The window checks of a region, those of the bundles that have issued in the present cycle among them. -/
def State.checkTasks (s : State) (region : Nat) : List Task :=
  (s.tiles.zipIdx.filter fun x => x.1.region == region).flatMap fun x =>
    ((List.finRange 16).filter fun w => (x.1.wins.get w).chk.isSome).map fun w => .event (.windowCheckEval x.2 w)

/-- What tile i does in one cycle of its cluster before it issues. -/
def tileTasks (i : Nat) (t : Tile) : List Task :=
  taskIf (t.act.toList.any (· != 0)) (.routeActExpiry i) ++
    (if t.accs.isEmpty && t.wbuf.isEmpty && t.claims.isEmpty then [] else [.access i]) ++
    taskIf (t.accs.any fun x => x.op.isServe) (.remoteAccessService i) ++
    taskIf (!t.core.lands.isEmpty || !t.accs.isEmpty) (.resultLands (.tile i)) ++
    taskIf (!t.mtasks.isEmpty) (.matrixStepLands i) ++
    taskIf (t.arrivals.any fun a => a.seam.isSome) (.seamBufferRelease i) ++
    taskIf (!t.arrivals.isEmpty) (.meshWordArrival i) ++
    taskIf (t.bank1.wake.isSome || t.bank2.wake.isSome) (.bankWake i) ++
    (match t.run with
      | .waiting _ => taskIf true (.waitsExpiry i)
      | _ => []) ++
    taskIf t.rep.active (.replayCmdIssue i) ++ taskIf t.rep.active (.tapeEndResume i)

/-- The issue of tile i. -/
def tileIssue (i : Nat) (t : Tile) : List Task :=
  match t.run with
  | .running => [.issue (.tile i)]
  | .waiting _ => [.issue (.tile i)]
  | _ => []

/-- Whether cluster c has a cycle of its schedule: not one that it loses, nor one that it is held in. -/
def Cluster.runs (c : Cluster) (extra : Bool) : Bool := (extra || c.ticks) && c.hold == 0

/-- What cluster k of a region does in one of its cycles before its tiles issue, or in a cycle that it is held or loses. -/
def State.clusterTasks (s : State) (r : Region) (k : Nat) (c : Cluster) (extra : Bool) : List Task :=
  if c.runs extra then
    taskIf (!c.grants.isEmpty) (.grantLatch r.id k) ++
      (s.tiles.zipIdx.filter fun x => x.1.region == r.id && x.1.cluster == k).flatMap fun x => tileTasks x.2 x.1
  else taskIf (!extra && c.ticks) (.realignHoldEnd r.id k)

/-- The issues of the tiles of cluster k of a region in one of its cycles. -/
def State.clusterIssues (s : State) (r : Region) (k : Nat) (c : Cluster) (extra : Bool) : List Task :=
  if c.runs extra then
    (s.tiles.zipIdx.filter fun x => x.1.region == r.id && x.1.cluster == k).flatMap fun x => tileIssue x.2 x.1
  else []

/-- The cycle of a region: landings of its copies at any time; while its schedule runs, a frozen cycle or the cycle of
every cluster (`only` names one), in which the tiles issue once every tile has done the rest of its cycle, then the window
checks. -/
def State.advanceTasks (s : State) (region : Nat) (only : Option Nat) : List Task :=
  match s.region? region with
  | none => []
  | some r =>
    let mine := s.tiles.zipIdx.filter fun x => x.1.region == region
    let run : Bool := r.live && !r.frozenAt s.wcy
    let copies := if only.isSome then [] else mine.flatMap fun x => s.copyTasks x.2 x.1 run
    if !r.live then copies
    else
      if r.frozenAt s.wcy then copies ++ [.checks region] ++ taskIf only.isNone (.regionFreeze region)
      else
        let cs := r.clusters.zipIdx.filter fun x => only.all (· == x.2)
        let runs := cs.flatMap (fun x => s.clusterTasks r x.2 x.1 only.isSome) ++
          cs.flatMap fun x => s.clusterIssues r x.2 x.1 only.isSome
        copies ++ taskIf (r.wasFrozen && only.isNone) (.regionRelease region) ++ runs ++ [.checks region]

/-- The end of a region's cycle; clusters with reference cycles still to gain run again. -/
def State.syncTasks (s : State) (region : Nat) (only : Option Nat) : State :=
  match s.region? region with
  | none => s
  | some r =>
    if !r.live || r.frozenAt s.wcy then s
    else
      let (s1, more) := s.endCycle region only
      { s1 with agenda := more.flatMap (fun k => [.advance region (some k), .sync region (some k)]) ++ s1.agenda }

/-! ## The next wall cycle (R3, R387) -/

/-- The Lanterns, the wall events, the walkers and the schedules of a cycle: what reads an event counter comes after what
updates one (R292). DEDUCED, log entry 88. -/
def State.cycleTasks (s : State) (fresh : Bool) : List Task :=
  if !s.mod_.powered then []
  else
    let late := (List.finRange 4).filter s.readsEvents
    ((List.finRange 4).flatMap fun n => s.lanternTasks n ++ if late.contains n then [] else s.lanternIssue n) ++
      s.wallTasks fresh ++ s.walkerTasks false ++ late.flatMap s.lanternIssue ++ s.walkerTasks true ++
      s.regions.flatMap fun r => [.advance r.id none, .sync r.id none]

/-- Whether an input reaches the machine: an event, and of the accesses through BAR2 one that lies within its size (R385).
DESIGN CHOICE, log entry 5. -/
def State.reaches (s : State) : Input → Bool
  | .event (.hostBar2Write off data) => off + data.length ≤ s.mod_.bar2Gib * 2 ^ 30
  | .event (.hostBar2Read off n) => off + n ≤ s.mod_.bar2Gib * 2 ^ 30
  | .event e => (encodeFields e).isNone
  | _ => true

/-- An input is performed. -/
def State.performInput (s : State) : Input → Host.Outcome State Fault Refusal
  | .event e => exec e s
  | .bar0Read off n => .next (s.bar0Read off n)
  | .bar2Resize k => .next (s.resizeBar2 k)

/-- Inputs whose cycle has come are taken, in their order. DESIGN CHOICE, log entry 5. -/
def State.takeInputs (s : State) : State × List Task :=
  let due := s.inputs.filter fun x => x.1 ≤ s.wcy && s.reaches x.2
  ({ s with inputs := s.inputs.filter fun x => s.wcy < x.1 }, due.map fun x => .host x.2)

/-- The counters that every reference cycle of the module moves. -/
def State.tickUnits (s : State) : State :=
  { s with lanterns := s.lanterns.map fun l => { l with cyc := l.cyc + 1 }, ports := s.ports.map Port.tick, evCycle := [],
           tiles := s.tiles.map fun t => { t with spceNow := false, csceNow := false } }

/-- The next wall cycle begins. While the module slews its WCY, one value in 4,096 passes with no reference cycle, or one
reference cycle with no new value; a value that completes a microsecond updates the energy either way (R357). -/
def State.nextCycle (s : State) : State :=
  let m := s.mod_
  let now := m.slew != 0 && m.lastSlew + 4096 ≤ s.wcy
  if now && m.slew < 0 then
    let s1 := { s with mod_ := { m with slew := m.slew + 1, lastSlew := s.wcy } }.tickUnits
    { s1 with agenda := s1.cycleTasks false }
  else
    let s1 := { s with wcy := s.wcy + 1 }
    let (s2, ins) := s1.takeInputs
    if now then
      { s2 with mod_ := { m with slew := m.slew - 1, lastSlew := s1.wcy },
                agenda := ins ++ taskIf (s1.wcy % 2500 == 0) (.energyUpdate s1.wcy) }
    else
      let s3 := s2.tickUnits
      { s3 with agenda := ins ++ s3.cycleTasks true }

/-! ## Tasks -/

/-- The present entry of a queue, if there is one, is taken up (R290), in the turn that its kind has: one that updates an
event counter in the first, which ends the queue's cycle, and any other in the second (R292). -/
def State.walkTask (s : State) (q : Fin 20) (reads : Bool) : State :=
  if s.walkUpdates q == reads then s
  else
    match s.walkQueue q with
    | (s1, some e) => { s1 with agenda := .event e :: s1.agenda.filter fun x => x != .walker q true }
    | (s1, none) => s1

/-- One task of the present cycle. -/
def State.perform (s : State) : Task → Host.Outcome State Fault Refusal
  | .event e => exec e s
  | .host x => s.performInput x
  | .issue a => s.issueAgent a
  | .advance r only => .next { s with agenda := s.advanceTasks r only ++ s.agenda }
  | .access i => .next (s.runAccesses i)
  | .visible i => .next (s.commitWrites i)
  | .checks r => .next { s with agenda := s.checkTasks r ++ s.agenda }
  | .sync r only => .next (s.syncTasks r only)
  | .walker q reads => .next (s.walkTask q reads)

/-! ## One instruction placed where the machine issues next -/

/-- A timetable image that holds only code: one tile, all divisors 1. -/
def Image.ofCode (code : List Byte) : Image :=
  { flags := 0, entry := 0, maxintv := 0, mapclass := 0, fidelity := 0, tthash := 0, divs := 0, code := code, switches := [],
    power := [], loops := [], replays := [], patches := [], guards := [], pages := [], data := (0, []) }

/-- A slot word with the stop bit. -/
def stopWord (w : Nat) : Nat := w + 2 ^ 31

/-- NOPs of classes S, V, M, C, K, L (R51 to R54). -/
def nopWord (cls : Nat) : Nat := cls * 2 ^ 28

/-- A legal tile bundle around a slot without stop bit (R37); REPB stands beside a PUBLISH (R371). -/
def bundleAround (w : Nat) : List Nat :=
  match slotClass w with
  | 1 => [w, nopWord 1, nopWord 2, stopWord (nopWord 3)]
  | 2 => [w, nopWord 3, nopWord 3, stopWord (nopWord 4)]
  | 3 => [w, nopWord 3, nopWord 4, stopWord (nopWord 5)]
  | 4 => [nopWord 0, nopWord 1, w, stopWord (nopWord 5)]
  | 5 => [nopWord 0, nopWord 1, nopWord 1, stopWord w]
  | _ => if slotIsRepb w then [w, nopWord 1, 0x3018_0000, stopWord (nopWord 4)]
    else [w, nopWord 1, nopWord 1, stopWord (nopWord 2)]

/-- The bytes of slot words, each lowest byte first (R33, R34). -/
def wordBytes (ws : List Nat) : List Byte := ws.flatMap fun w => leBytes 4 w

/-- Whether only a Lantern runs a slot (R54). -/
def lanternOnly (w : Nat) : Bool := slotClass w == 6 && 0x20 ≤ slotOp w

/-- A one-tile launch placed and running with a code store. -/
def State.placeCode (s : State) (code : List Byte) : State :=
  let d : Descriptor := ⟨0, 0, 0, 0, 0, 0, 0, 0, 0, 0, none⟩
  let l : Launch :=
    { newLaunch 1 0 ⟨0, 0, 0, 0, false, false, false⟩ d 3 (Image.ofCode code) [] with state := .running }
  let rect : Rect := ⟨0, 0, 1, 1⟩
  { s with
    launches := [l], regions := [{ s.newRegion l rect 0 with phase := .running }],
    tiles := (s.tilesFor l rect 0).map fun t => { t with run := .running }, agenda := [.issue (.tile 0)] }

/-- Lantern 0 running with an instruction region. -/
def State.placeLantern (s : State) (code : List Byte) : State :=
  let s1 := s.modLantern 0 fun _ => { Lantern.reset with sram := ⟨cellsFrom 0 code, []⟩, run := true }
  { s1 with agenda := [.issue (.lantern 0)] }

/-- A slot word, without stop bit, in a bundle that issues next. -/
def State.placeWord (s : State) (w : Nat) : State :=
  if lanternOnly w then s.placeLantern (wordBytes [w, nopWord 0, nopWord 0, stopWord (nopWord 0)])
  else s.placeCode (wordBytes (bundleAround w))

end Sys2Proof.Machine
end

