-- ==== Sys2Proof/Machine/Step.lean ====
section
/-! DEFINITION. The step of the module: it performs the next task of the present wall cycle, or begins the next cycle. -/

namespace Sys2Proof.Machine

/-- One step. DESIGN CHOICE, log entry 4. -/
def step (s : State) : Host.Outcome State Fault Refusal :=
  match s.agenda with
  | [] => .next s.nextCycle
  | t :: ts => { s with agenda := ts }.perform t

/-- The machine with one slot word where it issues next: in a bundle of a one-tile launch, or of Lantern 0 where only a
Lantern runs it. The stop bit belongs to the bundle, not to the instruction. DEDUCED, log entry 10. -/
def State.withFetchWord (s : State) (nbits w : Nat) : State := s.placeWord (w % 2 ^ min nbits 31)

end Sys2Proof.Machine
end

