-- ==== Sys2Proof/Safety.lean ====
section
/-! DEFINITION. The terms of the statements: when a slot issues, what it may change, and the meaning of a step. -/

namespace Sys2Proof.Machine

/-! ## When a slot issues -/

/-- The slot that issues counts as one more of its core. -/
def State.begun (s : State) : State := s.modCore fun c => { c with seq := c.seq + 1 }

/-- The state with the recorder and the tape of the issuing tile left out. -/
def Tile.untape (t : Tile) : Tile := { t with rec_ := .reset, tape := .empty }
def State.untaped (s : State) : State := s.modFocus Tile.untape

/-- The instruction completes in the state `u`, whatever the recorder of the issuing tile writes beside (R271). -/
def Completes (i : Instr) (s u : State) : Prop := ∃ t, exec i s = .next t ∧ t.untaped = u.untaped

/-- The instruction takes the fault f: with the state of the issue so far, it ends in the taking of f (R28, R287, R361),
whatever the recorder of the issuing tile writes beside. -/
def TrapsWith (i : Instr) (s : State) (f : Trap) : Prop :=
  ∃ t, exec i s = .next t ∧ t.untaped = (s.begun.takeFault f).untaped

/-- The same for a slot that has read memory up to the state r: what it has counted there stays (R349). -/
def TrapsCounting (i : Instr) (s r : State) (f : Trap) : Prop :=
  ∃ t, exec i s = .next t ∧ t.untaped = ((s.begun.counted r).takeFault f).untaped

/-- The value and marks that source number n delivers: the register, or during replay the value of the tape, clean
(R96, R98, R272, R278). -/
def State.operand (s : State) (c : Core) (n : Nat) (d : SOp) : SReg :=
  match s.imms with
  | none => c.readS d
  | some vs => ⟨vs.getD n 0, false, false⟩

/-- Every bank that the registers named lie in is on (R102). -/
def State.banksOn (s : State) (ds : List SOp) : Prop :=
  ∀ t, s.focusTile? = some t → ∀ d ∈ ds, t.bankOff d = false

/-- The guard is true and clean (R35, R98); the commands of a tape have none (R278). -/
def State.passes (s : State) (c : Core) (g : Guard) : Prop :=
  s.imms = none → (c.readQ g).val = true ∧ (c.readQ g).poison = false

/-- No control source is poisoned (R98); values of a tape are clean (R278). -/
def State.cleanControl (s : State) (c : Core) (ds : List SOp) : Prop :=
  s.imms = none → ∀ d ∈ ds, (c.readS d).poison = false

/-- A slot of the core c issues with its effect: no loop level of count 0 suppresses it (R129), its guard passes, the
banks of the registers that it names are on, and none of its control sources is poisoned. -/
structure Issues (s : State) (c : Core) (g : Guard) (named control : List SOp) : Prop where
  core : s.coreOf s.focus = some c
  live : c.suppressed = false
  guard : s.passes c g
  banks : s.banksOn named
  clean : s.cleanControl c control

/-- The same for a slot that only tiles run: the core is that of the tile t (R54). -/
structure IssuesOn (s : State) (t : Tile) (g : Guard) (named control : List SOp) : Prop extends
    Issues s t.core g named control where
  tile : s.focusTile? = some t

/-! ## Results that land later (R99) -/

/-- One slot has issued: its results land so many control cycles after issue, the last result of an S slot at `last`. -/
def State.lands (s : State) (last : Nat) (xs : List (Nat × Effect)) : State :=
  s.modCore fun c =>
    { c with seq := c.seq + 1, sLast := max c.sLast last,
             lands := c.lands ++ xs.map fun x => ⟨⟨.ctl, s.env.ctl + x.1⟩, c.seq + 1, x.2⟩ }

/-- A result v for d and for l: `lo` cycles for l and the o file, `ls` for the s file (R93, R99). -/
def State.result (s : State) (d : SOp) (v : SReg) (lo ls : Nat) : State :=
  let n := match d with
    | .s _ => ls
    | _ => lo
  s.lands (s.env.ctl + n) [(n, .reg d v), (lo, .reg .l v)]

/-! ## Integer results (R113, R114, R117 to R119) -/

/-- The operands and the latencies of an S instruction with two register sources: to l and the o file, and to the s file. -/
structure TwoSource where
  g : Guard
  d : SOp
  a : SOp
  b : SOp
  lo : Nat
  ls : Nat

/-- The S instructions with two register sources and one integer result. -/
def twoSource : Instr → Option TwoSource
  | .add g d a b | .sub g d a b | .and g d a b | .or g d a b | .xor g d a b | .shl g d a b | .shr g d a b | .sra g d a b
  | .min g d a b | .max g d a b | .minu g d a b | .maxu g d a b => some ⟨g, d, a, b, 1, 2⟩
  | .mul g d a b | .mulh g d a b | .mulhu g d a b => some ⟨g, d, a, b, 3, 3⟩
  | .div g d a b | .divu g d a b | .rem g d a b | .remu g d a b => some ⟨g, d, a, b, 18, 18⟩
  | _ => none

/-- The result of an S instruction on the values of its two sources, in integer arithmetic. -/
def integerResult (i : Instr) (x y : Word) : Word :=
  let a := x.toInt
  let b := y.toInt
  let n := y.toNat % 64
  match i with
  | .add .. | .addi .. => BitVec.ofInt 64 (a + b)
  | .sub .. => BitVec.ofInt 64 (a - b)
  | .and .. | .andi .. => BitVec.ofFnLE fun j => x.getLsbD j && y.getLsbD j
  | .or .. | .ori .. => BitVec.ofFnLE fun j => x.getLsbD j || y.getLsbD j
  | .xor .. | .xori .. => BitVec.ofFnLE fun j => x.getLsbD j != y.getLsbD j
  | .shl .. | .shli .. => BitVec.ofNat 64 (x.toNat * 2 ^ n)
  | .shr .. | .shri .. => BitVec.ofNat 64 (x.toNat / 2 ^ n)
  | .sra .. | .srai .. => BitVec.ofInt 64 (a / 2 ^ n)
  | .min .. => if a < b then x else y
  | .max .. => if b < a then x else y
  | .minu .. => if x.toNat < y.toNat then x else y
  | .maxu .. => if y.toNat < x.toNat then x else y
  | .mul .. => BitVec.ofInt 64 (a * b)
  | .mulh .. => BitVec.ofInt 64 (a * b / 2 ^ 64)
  | .mulhu .. => BitVec.ofNat 64 (x.toNat * y.toNat / 2 ^ 64)
  | .div .. => if b = 0 then -1 else if a = -2 ^ 63 ∧ b = -1 then x else BitVec.ofInt 64 (a.tdiv b)
  | .rem .. => if b = 0 then x else if a = -2 ^ 63 ∧ b = -1 then 0 else BitVec.ofInt 64 (a - a.tdiv b * b)
  | .divu .. => if b = 0 then -1 else BitVec.ofNat 64 (x.toNat / y.toNat)
  | .remu .. => if b = 0 then x else BitVec.ofNat 64 (x.toNat % y.toNat)
  | _ => 0

/-- The S instructions with one register source and an immediate: guard, d, a and the immediate as R114 extends it. -/
def withImmediate : Instr → Option (Guard × SOp × SOp × Word)
  | .addi g d a n | .andi g d a n | .ori g d a n | .xori g d a n => some (g, d, a, BitVec.ofInt 64 n.toInt)
  | .shli g d a n | .shri g d a n | .srai g d a n => some (g, d, a, BitVec.ofNat 64 n.toNat)
  | _ => none

/-- The number of zero bits above the highest one bit (R117). -/
def leadingZeros (x : Word) : Nat := ((List.range 64).takeWhile fun j => !x.getMsbD j).length

/-- The number of one bits (R117). -/
def oneBits (x : Word) : Nat := (List.range 64).countP fun j => x.getLsbD j

/-- A compare condition on two numbers (R120). -/
def comparison (c : Cond) (x y : Word) : Prop :=
  match c with
  | .eq => x.toNat = y.toNat
  | .ne => x.toNat ≠ y.toNat
  | .lt => x.toInt < y.toInt
  | .ge => y.toInt ≤ x.toInt
  | .ltu => x.toNat < y.toNat
  | .geu => y.toNat ≤ x.toNat

/-- The four operations of R121 on two predicates. -/
def predicateLogic (op : PlogOp) (x y : Prop) : Prop :=
  match op with
  | .and => x ∧ y
  | .or => x ∨ y
  | .xor => ¬(x ↔ y)
  | .andn => x ∧ ¬y

/-! ## Transfers (R122, R125 to R128) -/

/-- A slot of the core that takes a transfer: what it asks of the choice of the next bundle, and its link, if any, which
lands one control cycle after issue. -/
def State.transfers (s : State) (t : Transfer) (link : Option (Fin 4 × BitVec 32)) : State :=
  s.modCore fun c =>
    { c with
      seq := c.seq + 1, ctl := some (.xfer t)
      sLast := match link with
        | some _ => max c.sLast (s.env.ctl + 1)
        | none => c.sLast
      lands := c.lands ++ link.toList.map fun x => ⟨⟨.ctl, s.env.ctl + 1⟩, c.seq + 1, .breg x.1 x.2⟩ }

/-- The address of the n-th bundle that follows in code-store order. -/
def State.bundleAfter (s : State) (c : Core) (n : Nat) : Nat := nthBundle (s.codeOf s.focus) (agentKind s.focus) n c.pc

/-- The link of a transfer with n delay bundles: the address of the bundle that follows the last of them in code-store
order, where the first of them is the bundle that the loop levels open choose (R122, R127 to R129). -/
def State.linkOf (s : State) (c : Core) (n : Nat) : BitVec 32 :=
  let m := s.codeOf s.focus
  let kind := agentKind s.focus
  BitVec.ofNat 32 (nthBundle m kind 1 (c.follow m kind n).pc)

/-- The address `imm` slots from the bundle that issues (R46, R126). -/
def slotsFromPc (c : Core) (imm : BitVec 16) : BitVec 32 := BitVec.ofInt 32 (c.pc + 4 * imm.toInt)

/-! ## Special registers (R103 to R110) -/

/-- The indices of R103 that both kinds of core have, those of a tile and that of a Lantern. -/
def hasSpecial (kind : CoreKind) (n : Nat) : Prop :=
  n = 0x050 ∨ n = 0x051 ∨ n = 0x080 ∨ (0x088 ≤ n ∧ n ≤ 0x08F) ∨ (0x090 ≤ n ∧ n ≤ 0x097) ∨ (0x0A0 ≤ n ∧ n ≤ 0x0A3) ∨
    (match kind with
      | .tile => n ≤ 0x003 ∨ (0x010 ≤ n ∧ n ≤ 0x017) ∨ (0x020 ≤ n ∧ n ≤ 0x025) ∨ n = 0x030 ∨ n = 0x031 ∨ n = 0x040 ∨
          n = 0x041 ∨ (0x060 ≤ n ∧ n ≤ 0x065) ∨ n = 0x070 ∨ n = 0x071
      | .lantern => n = 0x004)

/-- STATUS of a tile (R106). -/
structure IsStatus (t : Tile) (c : Cluster) (v : Nat) : Prop where
  size : v < 2 ^ 24
  fid : v / 2 ^ 20 = c.fid % 16
  var : v / 2 ^ 18 % 4 = c.variant % 4
  replay : v.testBit 17 = t.rep.bit
  rec_ : v.testBit 16 = t.rec_.recBit
  tinv : v.testBit 15 = t.rec_.tinv
  zeros : v / 2 ^ 8 % 2 ^ 7 = 0 ∧ v / 2 % 8 = 0
  bank2 : v / 2 ^ 6 % 4 = (match t.bank2.st with
    | .on => 0
    | .ret => 1
    | .off => 2)
  bank1 : v / 2 ^ 4 % 4 = (match t.bank1.st with
    | .on => 0
    | .ret => 1
    | .off => 2)
  bankclr : v.testBit 0 = t.bankclr

/-- CAUSE of a tile (R107). -/
structure IsCause (f : FaultRec) (v : Nat) : Prop where
  size : v < 2 ^ 20
  valid : v.testBit 19 = f.valid
  slot : v / 2 ^ 16 % 8 = f.slot % 8
  code : v % 2 ^ 16 = f.code % 2 ^ 16

/-- REGION (R105). -/
structure IsRegion (r : Region) (v : Nat) : Prop where
  mods : v / 2 ^ 48 = (r.mods - 1) % 2 ^ 16
  index : v / 2 ^ 32 % 2 ^ 16 = r.modIx % 2 ^ 16
  zeros : v / 2 ^ 16 % 2 ^ 16 = 0 ∧ v.testBit 7 = false
  tiles : v / 2 ^ 12 % 16 = (r.th - 1) % 16 ∧ v / 2 ^ 8 % 16 = (r.tw - 1) % 16
  sites : v / 2 ^ 4 % 8 = (r.ch - 1) % 8 ∧ v % 16 = (r.cw - 1) % 16

/-- CXY (R105): the serpentine index of the site, its coordinates and the place of its cluster in the region. -/
structure IsCxy (t : Tile) (c : Cluster) (v : Nat) : Prop where
  size : v < 2 ^ 23
  serp : v / 2 ^ 16 = t.site % 2 ^ 7
  zeros : v.testBit 15 = false ∧ v.testBit 7 = false
  place : v / 2 ^ 12 % 8 = c.oy % 8 ∧ v / 2 ^ 8 % 16 = c.ox % 16
  row : v / 2 ^ 4 % 8 = t.site / 10 % 8
  col : v % 16 = if t.site / 10 % 2 = 0 then t.site % 10 else 9 - t.site % 10

/-- PWRLVL (R354). -/
structure IsPwrlvl (t : Tile) (c : Cluster) (sus v : Nat) : Prop where
  nsw : v / 2 ^ 16 = t.nsw % 2 ^ 16
  stay : v.testBit 11 = t.stay
  last : v / 2 ^ 8 % 8 = t.lastLvl % 8
  sus : v / 2 ^ 4 % 8 = sus % 8
  grant : v % 8 = c.grant % 8
  zeros : v / 2 ^ 12 % 2 ^ 4 = 0 ∧ v.testBit 7 = false ∧ v.testBit 3 = false

/-- A set of divisors as CDIV shows it (R352). -/
structure ShowsDivs (d : Divs) (v : Nat) : Prop where
  copy : v / 2 ^ 12 % 2 ^ 4 = (d.cpy - 1) % 16
  vector : v / 2 ^ 8 % 2 ^ 4 = (d.vec - 1) % 16
  matrix : v / 2 ^ 4 % 2 ^ 4 = (d.mat - 1) % 16
  control : v % 2 ^ 4 = (d.ctl - 1) % 16

/-- CDIV (R351, R352). -/
structure IsCdiv (c : Cluster) (v : Nat) : Prop where
  size : v < 2 ^ 52
  live : v.testBit 51 = c.clk.liveB
  ready : v.testBit 50 = (c.clk.target.isSome && decide (c.clk.progAt + 256 ≤ c.scy))
  tgtv : v.testBit 49 = c.clk.target.isSome
  pendv : v.testBit 48 = c.clk.pend.isSome
  pend : ∀ d, c.clk.pend = some d → ShowsDivs d (v / 2 ^ 32)
  tgt : ∀ d, c.clk.target = some d → ShowsDivs d (v / 2 ^ 16)
  cur : ShowsDivs c.clk.div v

/-! ## Accesses (R131 to R134, R147, R152, R154) -/

/-- The slot decides an access to its scratchpad for a cycle; an S load or atomic notes when its result lands. -/
def State.accesses (s : State) (due : Due) (last : Nat) (op : AccOp) : State :=
  (s.modCore fun c => { c with seq := c.seq + 1, sLast := max c.sLast last }).modFocus fun t =>
    { t with accs := t.accs ++ [⟨due, t.core.seq, s.slot, s.env.scy, s.env.ctl, op⟩] }

/-- The bank cycle: the first reference cycle of the next control cycle (R131). -/
def State.bankCycle (s : State) : Due := ⟨.ctl, s.env.ctl + 1⟩

/-- The checks of R131 pass: a clean address, inside scratchpad, aligned to the size. -/
def addressFits (a : SReg) (addr : Word) (size : Nat) : Prop :=
  a.poison = false ∧ addr.toNat + size ≤ 2 ^ 21 ∧ addr.toNat % size = 0

/-- wrap(A + sx(imm6) * size, 64) (R132). -/
def offsetAddress (a : Word) (imm : BitVec 6) (size : Nat) : Word := BitVec.ofInt 64 (a.toInt + imm.toInt * size)

/-- The loads: guard, d, a, immediate, size, and whether the value is extended by its sign. -/
def loadForm : Instr → Option (Guard × SOp × SOp × BitVec 6 × Nat × Bool)
  | .ldB g d a n => some (g, d, a, n, 1, true)
  | .ldH g d a n => some (g, d, a, n, 2, true)
  | .ldW g d a n => some (g, d, a, n, 4, true)
  | .ldD g d a n => some (g, d, a, n, 8, false)
  | .ldBU g d a n => some (g, d, a, n, 1, false)
  | .ldHU g d a n => some (g, d, a, n, 2, false)
  | .ldWU g d a n => some (g, d, a, n, 4, false)
  | _ => none

/-- The stores: guard, d, a, immediate and size. -/
def storeForm : Instr → Option (Guard × SOp × SOp × BitVec 6 × Nat)
  | .stB g d a n => some (g, d, a, n, 1)
  | .stH g d a n => some (g, d, a, n, 2)
  | .stW g d a n => some (g, d, a, n, 4)
  | .stD g d a n => some (g, d, a, n, 8)
  | _ => none

/-- The atomics: guard, operation, d, a and b. -/
def atomForm : Instr → Option (Guard × AtomOp × SOp × SOp × SOp)
  | .atomAdd g d a b => some (g, .add, d, a, b)
  | .atomMin g d a b => some (g, .min, d, a, b)
  | .atomMax g d a b => some (g, .max, d, a, b)
  | .atomAnd g d a b => some (g, .and, d, a, b)
  | .atomOr g d a b => some (g, .or, d, a, b)
  | .atomXor g d a b => some (g, .xor, d, a, b)
  | .atomSwap g d a b => some (g, .swap, d, a, b)
  | .cas g d a b => some (g, .cas, d, a, b)
  | _ => none

/-! ## Address registers (R138, R139, R148 to R156) -/

/-- addr(g) of R139: an exact sum of signed numbers. -/
def generatorAddress (x : Gen) : Int :=
  x.base.toNat + x.ii.toNat * x.istr.toInt + x.oi.toNat * x.ostr.toInt

/-- The K instructions that read a register of the tile in a schedule cycle: guard, d, the value, and its poison. AGOUT and AGRD
do not see a position that lands in that cycle (R151). -/
def addressRead (i : Instr) (t : Tile) (scy : Nat) : Option (Guard × SOp × Word × Bool) :=
  match i with
  | .agout g d n => some (g, d, BitVec.ofInt 64 (generatorAddress (t.genAt scy n)), false)
  | .agrd g d n w =>
    let x := t.genAt scy n
    some (g, d, BitVec.ofNat 64 (match w with
      | .p => x.bw.toNat * 2 ^ 22 + x.base.toNat
      | .c => x.ocnt.toNat * 2 ^ 12 + x.icnt.toNat
      | .s => x.ostr.toNat * 2 ^ 24 + x.istr.toNat
      | .pos => x.oi.toNat * 2 ^ 12 + x.ii.toNat), false)
  | .hgetf g d f h =>
    let x := t.handles.get h
    some (g, d, BitVec.ofNat 64 (x.bits.toNat / 2 ^ (fieldPlace f).1 % 2 ^ (fieldPlace f).2), x.poison)
  | .vmget g d n => some (g, d, if n = 0 then BitVec.allOnes 64 else t.vm.get n, false)
  | .mkget g d n =>
    some (g, d, BitVec.ofNat 64 (if h : n.val < 4 then t.ym.get ⟨n.val, h⟩ else t.xm.get ⟨n.val - 4, by omega⟩).toNat, false)
  | _ => none

/-- The K instructions that write one register from one source one control cycle later: guard, a, and what lands. -/
def addressWrite (i : Instr) (t : Tile) (a : Word) : Option (Guard × SOp × Effect) :=
  match i with
  | .agadd g n x => some (g, x, .agBase n (BitVec.ofInt 22 ((t.gens.get n).base.toNat + a.toInt)))
  | .hsetf g h f x => some (g, x, .field h f a)
  | .ymset g n x => some (g, x, .ym n (BitVec.ofNat 32 a.toNat))
  | .xmset g n x => some (g, x, .xm n (BitVec.ofNat 32 a.toNat))
  | .vmset g n x => some (g, x, .vmask n a)
  | _ => none

/-- What lands in a generator. -/
def landsInGenerator : Effect → Bool
  | .agSet .. | .agStr .. | .agBase .. | .agBw .. | .agPos .. => true
  | _ => false

/-! ## Vector instructions (R193 to R197) -/

/-- The tile whose slot counts as issued. -/
def Tile.issued (t : Tile) : Tile := Tile.onCore (fun c => { c with seq := c.seq + 1 }) t

/-- What a vector instruction names: guard, mask, generators for a, b and d, and o sources. -/
structure VectorForm where
  g : Guard
  m : Fin 8
  a : Option (Fin 16)
  b : Option (Fin 16)
  d : Option (Fin 16)
  os : List (Fin 8)

def vectorForm : Instr → Option VectorForm
  | .vadd g _ m d a b | .vsub g _ m d a b | .vmul g _ m d a b | .vfma g _ m d a b | .vmin g _ m d a b
  | .vmax g _ m d a b | .vadds g _ m d a b | .vsubs g _ m d a b | .vand g _ m d a b | .vor g _ m d a b
  | .vxor g _ m d a b | .vshl g _ m d a b | .vshr g _ m d a b | .vsra g _ m d a b | .vsel g _ m d a b
  | .vperm g _ m d a b | .vmrg g _ m d a b | .vgath g _ m d a b | .vscat g _ m d a b =>
    some ⟨g, m, some a, some b, some d, []⟩
  | .vcmpeq g _ m _ a b | .vcmpne g _ m _ a b | .vcmplt g _ m _ a b | .vcmple g _ m _ a b =>
    some ⟨g, m, some a, some b, none, []⟩
  | .vabs g _ m d a | .vneg g _ m d a | .vexp2 g _ m d a | .vlog2 g _ m d a | .vrcp g _ m d a | .vrsq g _ m d a
  | .vsqrt g _ m d a | .vmov g _ m d a | .vsrt g _ m d a => some ⟨g, m, some a, none, some d, []⟩
  | .vcvt g _ m d a _ => some ⟨g, m, some a, none, some d, []⟩
  | .vcomp g _ m d a _ | .vexpd g _ m d a _ => some ⟨g, m, some a, none, some d, []⟩
  | .vscan g _ m d a k => some ⟨g, m, some a, none, some d, [k]⟩
  | .vred g _ m _ a _ => some ⟨g, m, some a, none, none, []⟩
  | .vredx g _ m _ a _ => some ⟨g, m, some a, none, none, []⟩
  | .vany g _ m _ a | .vall g _ m _ a | .vmask g _ m _ a => some ⟨g, m, some a, none, none, []⟩
  | .vbcast g _ m d k | .viota g _ m d k => some ⟨g, m, none, none, some d, [k]⟩
  | .vrand g _ m d j k => some ⟨g, m, none, none, some d, [j, k]⟩
  | .vpopm g _ m _ _ => some ⟨g, m, none, none, none, []⟩
  | _ => none

/-- The mask register j as V instructions read it: m0 is all ones (R137, R193). -/
def Tile.maskOf (t : Tile) (j : Fin 8) : BitVec 64 := if j = 0 then BitVec.allOnes 64 else t.vm.get j

/-- What a vector instruction latches at issue (R194): addresses, mask, FRM and o sources; VPOPM latches its second mask. -/
def State.latch (s : State) (t : Tile) (i : Instr) (f : VectorForm) : VCtx :=
  let gen (n : Option (Fin 16)) : Int := (n.map fun n => generatorAddress (t.gens.get n)).getD 0
  let os := f.os.zipIdx.map fun k => s.operand t.core k.2 (.o k.1)
  { op := i, addrB := gen f.b, addrD := gen f.d,
    addrA := match i with
      | .vpopm _ _ _ _ j => (t.maskOf j).toNat
      | _ => gen f.a
    mask := t.maskOf f.m, frm := RMode.ofCode t.frm.toNat, o1 := os.getD 0 .zero, o2 := os.getD 1 .zero }

/-- An operand of R197: address, size and alignment. -/
def operandFits (x : Int × Nat × Nat) : Prop := x.1 % x.2.2 = 0 ∧ 0 ≤ x.1 ∧ x.1 + x.2.1 ≤ 2 ^ 21

/-- The access that a vector instruction decides: its read in vector cycle 1, or its write in cycle L where it reads no
line (R194, R195). -/
def State.vectorAccess (s : State) (v : VCtx) : Due × AccOp :=
  if v.reads = [] then (⟨.vec, s.env.vec + vLatency v.op⟩, .vwrite (v.result []).writes (v.result []).effs)
  else (⟨.vec, s.env.vec + 1⟩, .vread v)

/-- The vector unit of the slot (R37). -/
def State.vectorUnit (s : State) : Fin 2 := if s.second then 1 else 0

/-- The tile after an access is decided. -/
def Tile.decides (s : State) (due : Due) (op : AccOp) (t : Tile) : Tile :=
  { t with accs := t.accs ++ [⟨due, t.core.seq, s.slot, s.env.scy, s.env.ctl, op⟩] }

/-- The generators named advance by one use each, one control cycle after issue (R140). -/
def Tile.positions (t : Tile) (ns : List (Fin 16)) : List (Nat × Effect) :=
  ns.map fun n => (1, .agPos n (t.gens.get n).step.ii (t.gens.get n).step.oi)

/-- The elementwise integer operations on one pair of numbers (R198, R200). -/
def laneInteger (i : Instr) (bits : Nat) (a b d : Int) : Option Int :=
  match i with
  | .vadd .. => some (a + b)
  | .vsub .. => some (a - b)
  | .vmul .. => some (a * b)
  | .vfma .. => some (a * b + d)
  | .vmin .. => some (min a b)
  | .vmax .. => some (max a b)
  | .vabs .. => some |a|
  | .vneg .. => some (-a)
  | .vshl .. => some (a * 2 ^ (b % bits).toNat)
  | _ => none

/-- The bytes of elements of width w that a line write carries: element i of n is `value i`, little-endian, or is not
written (R193). -/
def LineWrite.carries (out : LineWrite) (addr w n : Nat) (value : Nat → Option Nat) : Prop :=
  out.addr = addr ∧ out.bytes.length = n * w ∧
    ∀ i < n, ∀ j < w, out.bytes[i * w + j]? = some ((value i).map fun x => BitVec.ofNat 8 (x / 256 ^ j))

/-- The flags that n lanes raise together (R79). -/
def raisedBy (effs : List Effect) (n : Nat) (on : Nat → Bool) (fl : Nat → FFlags) : Prop :=
  ∃ g : FFlags, effs = (if g = 0 then [] else [.flags g]) ∧
    ∀ k < 6, g.getLsbD k = true ↔ ∃ i < n, on i = true ∧ (fl i).getLsbD k = true

/-- The floating operations on one pair of encodings (R198, R205). -/
def laneFloat (i : Instr) (f : FFmt) (frm : RMode) (a b d : Nat) : Option (Nat × FFlags) :=
  match i with
  | .vadd .. => some (fadd f frm a b)
  | .vsub .. => some (fsub f frm a b)
  | .vmul .. => some (fmul f frm a b)
  | .vfma .. => some (ffma f frm a b d)
  | .vmin .. => some (fminmax f false a b)
  | .vmax .. => some (fminmax f true a b)
  | .vabs .. => some (a % 2 ^ (f.width - 1), 0)
  | .vneg .. => some ((a + 2 ^ (f.width - 1)) % 2 ^ f.width, 0)
  | .vexp2 .. => some (funary f exp2Exact frm a)
  | .vlog2 .. => some (funary f log2Exact frm a)
  | .vrcp .. => some (funary f rcpExact frm a)
  | .vrsq .. => some (funary f rsqExact frm a)
  | .vsqrt .. => some (funary f sqrtExact frm a)
  | _ => none

/-- The least and the greatest number of an integer type (R67). -/
def leastOf (bits : Nat) (signed : Bool) : Int := if signed then -2 ^ (bits - 1) else 0
def greatestOf (bits : Nat) (signed : Bool) : Int := if signed then 2 ^ (bits - 1) - 1 else 2 ^ bits - 1

/-- A number clamped to an integer type, with SA where that changes it (R68, R199). -/
def clampedTo (bits : Nat) (signed : Bool) (x : Int) : Int × FFlags :=
  if x < leastOf bits signed then (leastOf bits signed, flagSA)
  else if greatestOf bits signed < x then (greatestOf bits signed, flagSA) else (x, 0)

/-- The saturating operations on one pair of numbers (R199). -/
def laneSaturating (i : Instr) (bits : Nat) (signed : Bool) (a b : Int) : Option (Int × FFlags) :=
  match i with
  | .vadds .. => some (clampedTo bits signed (a + b))
  | .vsubs .. => some (clampedTo bits signed (a - b))
  | _ => none

/-- The operations of R200, R210 and R213 on encodings of so many bits: lane i of n, the encodings a and b of the lane, line a
as a function of the lane, and the o values. -/
def laneBitwise (op : Instr) (bits n i : Nat) (line : Nat → Nat) (b : Nat) (o1 o2 : Word) : Option Nat :=
  let a := line i
  match op with
  | .vand .. => some (Nat.land a b)
  | .vor .. => some (Nat.lor a b)
  | .vxor .. => some (Nat.xor a b)
  | .vshr .. => some (a / 2 ^ (b % bits))
  | .vsra .. => some ((intValue bits true a / 2 ^ (b % bits)) % 2 ^ bits).toNat
  | .vmov .. => some a
  | .vbcast .. => some (o1.toNat % 2 ^ bits)
  | .viota .. => some ((o1.toNat + i) % 2 ^ bits)
  | .vperm .. => some (if b < n then line b else 0)
  | .vrand _ .i32 .. =>
    let x0 : BitVec 32 := BitVec.ofNat 32 (o2.toNat + i) ^^^ BitVec.ofNat 32 o1.toNat
    let x1 := (x0 ^^^ x0 >>> 16) * 0x6C8E_9CF5
    let x2 := (x1 ^^^ x1 >>> 13) * 0x3AD5_B1A7
    some (x2 ^^^ x2 >>> 16).toNat
  | _ => none

/-- Element i of an elementwise instruction over the lines that it reads, with its flags (R198 to R200, R205, R210, R213). -/
def laneResult (v : VCtx) (ls : List Line) (i : Nat) : Option (Nat × FFlags) :=
  let w := vwidth (vTypeOf v.op)
  let x (k j : Nat) : Nat := (ls.getD k Line.none).elem w j
  match laneBitwise v.op (8 * w) (64 / w) i (x 0) (x 1 i) v.o1.val v.o2.val, vfmt (vTypeOf v.op) with
  | some r, _ => some (r, 0)
  | none, .flt f => laneFloat v.op f v.frm (x 0 i) (x 1 i) (x 2 i)
  | none, .int n s =>
    match laneSaturating v.op n s (intValue n s (x 0 i)) (intValue n s (x 1 i)) with
    | some r => some ((r.1 % 2 ^ n).toNat, r.2)
    | none => (laneInteger v.op n (intValue n s (x 0 i)) (intValue n s (x 1 i)) (intValue n s (x 2 i))).map fun r =>
        ((r % 2 ^ n).toNat, 0)

/-- The instructions that deliver a mask, with the mask register, and the bit of a lane with its flags (R201, R202). -/
def maskForm (i : Instr) (f : EFmt) (a b : Nat) : Option (Fin 8 × Bool × FFlags) :=
  let compare (c : VCmp) (p : Int → Int → Bool) : Bool × FFlags :=
    match f with
    | .int n s => (p (intValue n s a) (intValue n s b), 0)
    | .flt g => fcmp g c a b
  match i with
  | .vcmpeq _ _ _ k _ _ => some (k, compare .eq fun x y => x == y)
  | .vcmpne _ _ _ k _ _ => some (k, compare .ne fun x y => x != y)
  | .vcmplt _ _ _ k _ _ => some (k, compare .lt fun x y => decide (x < y))
  | .vcmple _ _ _ k _ _ => some (k, compare .le fun x y => decide (x ≤ y))
  | .vmask _ _ _ k _ => some (k, (match f with
      | .int _ _ => a != 0
      | .flt g => !(g.value a).isZero), 0)
  | _ => none

/-- The enabled lanes of a vector instruction, ascending (R193). -/
def VCtx.lanes (v : VCtx) : List Nat :=
  (List.range (64 / vwidth (vTypeOf v.op))).filter (laneOn v.mask (vwidth (vTypeOf v.op)))

/-- An element counts as non-zero (R202). -/
def nonZero (f : EFmt) (a : Nat) : Prop :=
  match f with
  | .int _ _ => a ≠ 0
  | .flt g => (g.value a).isZero = false

/-- The integer result of VRED on the encodings xs of the enabled lanes (R206). -/
def reducesTo (fn : RedFn) (bits : Nat) (signed : Bool) (xs : List Nat) (r : Word) : Prop :=
  let ext := intValue bits signed
  match fn with
  | .add => r = BitVec.ofInt 64 (xs.map ext).sum
  | .min => (xs = [] ∧ r = 0) ∨ ∃ x ∈ xs, r = BitVec.ofInt 64 (ext x) ∧ ∀ y ∈ xs, ext x ≤ ext y
  | .max => (xs = [] ∧ r = 0) ∨ ∃ x ∈ xs, r = BitVec.ofInt 64 (ext x) ∧ ∀ y ∈ xs, ext y ≤ ext x
  | .and => ∀ j < 64, r.getLsbD j = (decide (xs ≠ []) && xs.all fun x => x.testBit j)
  | .or => ∀ j < 64, r.getLsbD j = xs.any fun x => x.testBit j
  | .xor => ∀ j < 64, r.getLsbD j = decide ((xs.countP fun x => x.testBit j) % 2 = 1)

/-- The order of R76 and R207 on two encodings. -/
def orderKey (f : EFmt) (x : Nat) : Int :=
  match f with
  | .int n s => intValue n s x
  | .flt g => g.cmpKey x

/-- An encoding of a NaN. -/
def isNaN (f : EFmt) (x : Nat) : Bool :=
  match f with
  | .int _ _ => false
  | .flt g => (g.value x).isNan

/-- The lane that VREDX delivers among enabled lanes that hold no NaN: the least or the greatest, the lowest of those that
are equal (R207). -/
def extremeLane (fn : RedxFn) (f : EFmt) (elem : Nat → Nat) (on : List Nat) (i : Nat) : Prop :=
  i ∈ on ∧ ∀ j ∈ on, (match fn with
    | .min => orderKey f (elem i) < orderKey f (elem j)
    | .max => orderKey f (elem j) < orderKey f (elem i)) ∨ (orderKey f (elem i) = orderKey f (elem j) ∧ i ≤ j)

/-- The two lines of a sort of the pairs ps, which stand in their order: the first 16, then fillers (R214, R215). -/
def VCtx.sorted (v : VCtx) (t : VType) (ps : List KeyPair) (r : VRes) : Prop :=
  r.effs = [] ∧ ∃ keys idxs, r.writes = [keys, idxs] ∧
    keys.carries v.addrD.toNat 4 16 (fun i => some ((ps[i]?.map (·.key)).getD
      (if t = .f32 then 0x7FC0_0000 else 0x8000_0000))) ∧
    idxs.carries (v.addrD.toNat + 64) 4 16 fun i => some ((ps[i]?.map (·.index)).getD 0xFFFF_FFFF)

/-! ## Matrix instructions (R142, R166, R173 to R181) -/

/-- The handle passes the checks of R142. -/
def handleFits (x : Handle) : Prop :=
  x.poison = false ∧ hReserved x.bits = false ∧ fmtListed (hFmt x.bits) = true ∧ hRows x.bits ≠ 0 ∧ hCols x.bits ≠ 0 ∧
    hBase x.bits % 64 = 0

/-- The handle is a plane tensor that so many steps can read (R174); `exact` asks for the native plane count. -/
def planeFits (h : BitVec 256) (steps : Nat) (exact : Bool) : Prop :=
  ∃ f, planeFmt (hFmt h) = some f ∧ hPlanes h ≤ f.planes ∧ hSigned h = f.signed ∧ (exact = true → hPlanes h = f.planes) ∧
    hTru h = false ∧ hCols h % 64 = 0 ∧ 64 * steps ≤ hCols h ∧ hRows h % (64 / blockW h) = 0 ∧ hRstr h % 8 = 0 ∧
    hPstr h % 8 = 0 ∧
    hBase h + (min (hRows h) 32 - 1) * hRstr h + (steps - 1) * hPstr h + 8 * (hPlanes h - 1) + 7 < 2 ^ 21

/-- A multiplication of two handles may issue (R166, R174, R176, R177). -/
def State.multiplies (s : State) (t : Tile) (z : Fin 2) (a b : Handle) (steps : Nat) : Prop :=
  handleFits a ∧ handleFits b ∧ planeFits a.bits steps false ∧ planeFits b.bits steps false ∧
    (∀ level ∈ s.mulLevels t, signOnDim (hPlanes a.bits) (hPlanes b.bits) (hSigned a.bits) (hSigned b.bits) steps level = false) ∧
    (t.acc.get z).stepc + 64 * steps ≤ 2 ^ 24

/-- The element tensor that MOUT writes (R178), the raw tile (R179) and the byte tensor of MSTAT (R181). -/
def outFits (x : Handle) : Prop :=
  handleFits x ∧ ∃ f, elemFmt (hFmt x.bits) = some f ∧ hRstr x.bits % f.bytes = 0 ∧
    hBase x.bits + 31 * hRstr x.bits + 32 * f.bytes ≤ 2 ^ 21
def rawFits (x : Handle) : Prop :=
  handleFits x ∧ hFmt x.bits = 0x20 ∧ hRstr x.bits % 8 = 0 ∧ hBase x.bits + 31 * hRstr x.bits + 2304 ≤ 2 ^ 21
def statFits (x : Handle) : Prop :=
  handleFits x ∧ hFmt x.bits = 1 ∧ 33 ≤ hRows x.bits ∧ 32 ≤ hCols x.bits ∧
    hBase x.bits + 32 * hRstr x.bits + 32 ≤ 2 ^ 21

/-- The plane and the element tensor of MPACK and MUNPK (R180). -/
def packFits (p e : Handle) (steps : Nat) (pack : Bool) : Prop :=
  handleFits p ∧ handleFits e ∧ planeFits p.bits steps pack ∧
    (∃ f, elemFmt (hFmt e.bits) = some f ∧ 64 * steps ≤ hCols e.bits ∧ hRstr e.bits % f.bytes = 0 ∧
      hBase e.bits + ((if pack then min (packRows p.bits) (hRows e.bits) else packRows p.bits) - 1) * hRstr e.bits +
        64 * steps * f.bytes ≤ 2 ^ 21) ∧
    (∀ f, planeFmt (hFmt p.bits) = some f → f.scaled = true →
      hSbase p.bits + (steps - 1) * 32 + packBlocks p.bits ≤ 2 ^ 21)

/-- The value of element k of a plane row, and the exponent of its block; none is a zero block (R80 to R84). -/
def PlaneRow.element (x : PlaneRow) (g : PlaneGeo) (k : Nat) : Int :=
  ((List.range g.planes).map fun i => if (x.words.getD i 0).testBit k then planeWeight g i else 0).sum
def PlaneRow.exponent (x : PlaneRow) (g : PlaneGeo) (k : Nat) : Option Int := (x.exps.getD (k / g.w) (Option.none, false)).1

/-- The product of element k of two rows in units of 2^-256 (R88, R160). -/
def elementProduct (ga gb : PlaneGeo) (a b : PlaneRow) (k : Nat) : Int :=
  match a.exponent ga k, b.exponent gb k with
  | some x, some y => a.element ga k * b.element gb k * 2 ^ (x + y + 256).toNat
  | _, _ => 0

/-- The pairs of planes that run on a slice in step j (R161). -/
def slicePairs (ga gb : PlaneGeo) (j slice : Nat) : List (Nat × Nat) :=
  ((pairOrder ga.planes gb.planes ga.signed gb.signed).zipIdx.filter fun x =>
    sliceOf (ga.planes * gb.planes) j x.2 == slice).map (·.1)

/-- The element (r, k) of the element tensor of MPACK; rows past its last read as +0 (R180). -/
def packElement (m : Mem) (e : BitVec 256) (f : EFmt) (r k : Nat) : FVal :=
  if hRows e ≤ r then .zero false else f.value (m.read (hBase e + r * hRstr e + k * f.bytes) f.bytes)

/-- The block of rows br and columns bk of step j, converted by R85: its exponent, its numbers and the flags. -/
def packedBlock (m : Mem) (p e : BitVec 256) (pf : PFmt) (ef : EFmt) (j br bk : Nat) : Int × List Int × FFlags :=
  let w := blockW p
  let tall := 64 / w
  planeBlock pf ef ((List.range tall).flatMap fun r => (List.range w).map fun k =>
    packElement m e ef (br * tall + r) (64 * j + bk * w + k))

/-- The number that MPACK makes of element k of row r of step j. -/
def packedNumber (m : Mem) (p e : BitVec 256) (pf : PFmt) (ef : EFmt) (j r k : Nat) : Int :=
  let w := blockW p
  let tall := 64 / w
  (packedBlock m p e pf ef j (r / tall) (k / w)).2.1.getD (r % tall * w + k % w) 0

/-! ## Bulk copies (R224 to R247) -/

/-- The instructions that read a dimension list: guard, handle, second handle, S sources. -/
def copyForm : Instr → Option (Guard × Fin 32 × Fin 32 × List SOp)
  | .cpyin g h | .cpyout g h => some (g, h, h, [])
  | .cpyloc g d h => some (g, d, h, [])
  | .cfill g h a => some (g, h, h, [a])
  | .stage g h c a => some (g, h, h, [c, a])
  | _ => none

/-- Checks 1 and 2 of R226 pass: the handles, and the place of the list. -/
def listFits (x y : Handle) : Prop :=
  handleFits x ∧ handleFits y ∧ hNdim x.bits < 9 ∧ hDlist x.bits % 8 = 0 ∧ hDlist x.bits + 16 * (hNdim x.bits + 1) ≤ 2 ^ 21

/-- A command may still be entered on a window (R226, R229, R231): a place in the queue, no stream, and the count. -/
def Tile.roomFor (t : Tile) (w : Fin 16) (behind add : Nat) : Prop :=
  t.outstanding + behind < 16 ∧ (t.wins.get w).mode ≠ .streaming ∧ (t.wins.get w).pend + add < 2 ^ 28

/-! ## Mesh and tile control (chapters 12 and 14) -/

/-- The slot is noted for the comparison across the region (R246). -/
def State.notes (s : State) (k : SyncKind) : State :=
  { s with syncs := s.syncs ++ (match s.focus with
      | .tile j => [⟨j, k, s.env.scy, s.slot, false⟩]
      | .lantern _ => []) }

/-- A segment of a route entry that R310 allows: not valid, or with a legal input, an output, and no reserved bit. -/
def segmentFits (x : Nat) : Prop := x < 2 ^ 15 ∨ (x % 64 = 0 ∧ x / 2 ^ 12 % 8 < 5 ∧ x / 64 % 64 ≠ 0)

/-- The line at the position of a generator (R131, R318, R319). -/
def lineFits (x : Gen) : Prop :=
  0 ≤ generatorAddress x ∧ generatorAddress x + 64 ≤ 2 ^ 21 ∧ generatorAddress x % 64 = 0

/-- The schedule cycle that the immediate form of WAITS names (R342): the one after the window's start that has the low
bits given. -/
def namesCycle (scy : Nat) (n : BitVec 17) (c : Int) : Prop :=
  (scy : Int) - 65536 < c ∧ c ≤ scy + 65536 ∧ c % 2 ^ 17 = n.toNat

/-- A Lantern slot issues with its effect (R299). -/
structure IssuesOnLantern (s : State) (n : Fin 4) (g : Guard) (named control : List SOp) : Prop extends
    Issues s (s.lanterns.get n).core g named control where
  lantern : s.focus = .lantern n

/-! ## Slots in general (R35, R54, R98, R136) -/

/-- The NOP of each class. -/
def isNop : Instr → Bool
  | .nop _ | .vnop _ | .mnop _ | .cnop _ | .knop _ | .lnop _ | .xnop _ => true
  | _ => false

/-- SEL, whose guard field is no guard (R35). -/
def isSel : Instr → Bool
  | .sel .. => true
  | _ => false

/-- The core of the issuing agent runs the instruction (R54). -/
def State.runs (s : State) (i : Instr) : Prop :=
  ∃ cls op g opr, encodeFields i = some (cls, op, g, opr) ∧ opAvailable (agentKind s.focus) cls op = true

/-- The instructions of R98 with one register that counts as control and is no address: guard and register. -/
def controlForm : Instr → Option (Guard × SOp)
  | .pbr g _ a => some (g, a)
  | .mts g _ a => some (g, a)
  | .loop g a _ => some (g, a)
  | .agadd g _ a | .agstr g _ a => some (g, a)
  | .hsetf g _ _ a => some (g, a)
  | .ymset g _ a | .xmset g _ a => some (g, a)
  | .vmset g _ a => some (g, a)
  | .cfill g _ a => some (g, a)
  | .rtset g _ a => some (g, a)
  | .rld g a | .waitsReg g a => some (g, a)
  | _ => none

/-- The S operands of a slot other than SEL: its guard, the registers that its operand fields name, sources before destinations
(R102), and those of its sources that count as control and are no address (R98). -/
def operandForm (i : Instr) : Option (Guard × List SOp × List SOp) :=
  match twoSource i, withImmediate i, loadForm i, storeForm i, atomForm i, copyForm i, controlForm i with
  | some f, _, _, _, _, _, _ => some (f.g, [f.a, f.b, f.d], [])
  | _, some (g, d, a, _), _, _, _, _, _ => some (g, [a, d], [])
  | _, _, some (g, d, a, _), _, _, _, _ => some (g, [a, d], [])
  | _, _, _, some (g, d, a, _), _, _, _ => some (g, [a, d], [])
  | _, _, _, _, some (g, op, d, a, b), _, _ => some (g, [a, b] ++ (if op = .cas then [d] else []) ++ [d], [])
  | _, _, _, _, _, some (g, _, _, srcs), _ => some (g, srcs, srcs)
  | _, _, _, _, _, _, some (g, a) => some (g, [a], [a])
  | _, _, _, _, _, _, none =>
    match i with
    | .li g d _ | .mfs g d _ => some (g, [d], [])
    | .lis g d _ => some (g, [d, d], [])
    | .clz g d a | .popc g d a => some (g, [a, d], [])
    | .cmp g _ _ a b => some (g, [a, b], [])
    | .cmpi g _ _ a _ => some (g, [a], [])
    | .agset g _ a b => some (g, [a, b], [a, b])
    | .agout g d _ => some (g, [d], [])
    | .agrd g d _ _ => some (g, [d], [])
    | .hgetf g d _ _ => some (g, [d], [])
    | .vmget g d _ => some (g, [d], [])
    | .mkget g d _ => some (g, [d], [])
    | .hld g _ a | .hst g _ a => some (g, [a], [])
    | .scl g _ a => some (g, [a], [])
    | .catom g v o c => some (g, [v, o, c], [v, o, c])
    | .ratom g c o => some (g, [c, o], [c])
    | .rdcyc g d | .rdwall g d => some (g, [d], [])
    | .launch g d a | .lda g d a | .kill g d a => some (g, [a, d], [a])
    | .evwait g d e v => some (g, [e, v, d], [e, v])
    | .evsig g _ e v => some (g, [e, v], [e, v])
    | .stl g d a => some (g, [d, a], [a])
    | .clrun g d a b | .preempt g d a b | .resume g d a b | .lease g d a b => some (g, [a, b, d], [a, b])
    | .wread g a b sel => some (g, [a, b, sel], [a, b, sel])
    | _ => none

/-- The transfers of R122, with their guards. -/
def transferForm : Instr → Option Guard
  | .br g _ | .call g _ | .jr g _ => some g
  | .jal g _ _ => some g
  | .ret g => some g
  | _ => none

/-- The record of a fault, as its tile keeps it (R360), and the record that keeps an earlier one (R107). -/
def FaultRec.of (f : Trap) (fcyc : Nat) : FaultRec := ⟨true, f.slot, f.code, f.faddr, fcyc, .none⟩
def FaultRec.keep (x new : FaultRec) : FaultRec := if x.valid then x else new

/-- The registers of a core, and those of a tile beside its core (R92, R137, R309, R317). -/
def Core.registers (c : Core) : Vector SReg 48 × Vector SReg 8 × SReg × Vector QReg 16 × Vector (BitVec 32) 4 :=
  (c.s, c.o, c.l, c.q, c.b)
def Tile.registers (t : Tile) : Vector Gen 16 × Vector Handle 32 × Vector Scale 4 × Vector (BitVec 32) 4 ×
    Vector (BitVec 32) 4 × Vector (BitVec 64) 8 × BitVec 6 × BitVec 2 × Vector Word 16 × BitVec 8 × BitVec 8 :=
  (t.gens, t.handles, t.scales, t.ym, t.xm, t.vm, t.fflags, t.frm, t.routes, t.stag, t.etag)

/-! ## The Taper (R269 to R283) -/

/-- The record words of a tile's tape (R267, R270). -/
def Tile.recordWords (t : Tile) : List Nat := (List.range t.rec_.nrec).map fun k => t.tape.read (64 + 8 * k) 8

/-- The prologue of a recording: a PATCH with its IMM for each slot of the template, and a GUARD for each entry of the guard
list (R270). -/
def prologue (l : Launch) : List Nat :=
  (l.img.patches.flatMap fun p => [3 * 2 ^ 60 + p.1, 2 * 2 ^ 60, (l.args.getD p.2 0).toNat]) ++
    l.img.guards.flatMap fun g => [5 * 2 ^ 60 + g.1 * 2 ^ 48, g.2.toNat]

/-- The header of R269 stands before the records. -/
structure Tile.headerHolds (t : Tile) (l : Launch) : Prop where
  magic : t.tape.read 0x00 4 = 0x4B57_5433
  version : t.tape.read 0x04 2 = 1
  gen : t.tape.read 0x06 1 = 3
  variant : t.tape.read 0x07 1 = t.rec_.variant % 2 ^ 8
  tthash : t.tape.read 0x08 8 = l.img.tthash.toNat
  fidelity : t.tape.read 0x10 1 = t.rec_.fid % 2 ^ 8
  flags : t.tape.read 0x11 1 =
    (if t.rec_.reason = 0 then 1 else 0) + (if t.rec_.partial_ then 2 else 0) + (if t.rec_.ended then 4 else 0)
  reason : t.tape.read 0x12 2 = t.rec_.reason % 2 ^ 16
  mapclass : t.tape.read 0x14 4 = l.img.mapclass % 2 ^ 32
  nrec : t.tape.read 0x18 4 = t.rec_.nrec % 2 ^ 32
  posn : t.tape.read 0x1C 4 = t.posn % 2 ^ 32
  invcyc : t.tape.read 0x20 8 = t.rec_.invCyc % 2 ^ 64
  invaddr : t.tape.read 0x28 4 = t.rec_.invAddr % 2 ^ 32
  zero : t.tape.read 0x2C 4 = 0 ∧ t.tape.read 0x38 4 = 0
  launch : t.tape.read 0x30 8 = l.id % 2 ^ 64
  crc : t.tape.read 0x3C 4 = crc32c (t.tape.bytes 0 0x3C ++ t.tape.bytes 64 (8 * t.rec_.nrec)) % 2 ^ 32

/-- The register at place n of the masks of R279. -/
def maskPlace (n : Nat) : SOp :=
  if h : n < 48 then .s ⟨n, h⟩ else if h : n - 48 < 8 then .o ⟨n - 48, h⟩ else .l

/-- What a STATE record restores: written within the span, and without taint (R279). -/
def Tile.restores (t : Tile) (n : Nat) : Bool := t.rec_.wmask.getLsbD n && !(t.core.readS (maskPlace n)).taint
def Tile.restoresQ (t : Tile) (n : Fin 16) : Bool := t.rec_.wqmask.getLsbD n && !(t.core.readQ n).taint

/-- The payload p of a STATE record (R279). -/
structure Tile.payload (t : Tile) (p : List Nat) : Prop where
  long : p.length = 5 + ((List.range 57).filter t.restores).length
  mask : ∀ n, (p.getD 0 0).testBit n = (decide (n < 57) && t.restores n)
  preds : ∀ n : Fin 16, (p.getD 1 0).testBit n = (decide (2 ≤ n.val) && (t.core.readQ n).val) ∧
    (p.getD 1 0).testBit (16 + n) = (decide (2 ≤ n.val) && t.restoresQ n) ∧
    (p.getD 1 0).testBit (32 + n) = (decide (2 ≤ n.val) && t.rec_.wqmask.getLsbD n)
  below : p.getD 1 0 < 2 ^ 48
  targets : p.getD 2 0 = (t.core.b.get 0).toNat + (t.core.b.get 1).toNat * 2 ^ 32 ∧
    p.getD 3 0 = (t.core.b.get 2).toNat + (t.core.b.get 3).toNat * 2 ^ 32
  written : p.getD 4 0 = t.rec_.wmask.toNat
  values : p.drop 5 = ((List.range 57).filter t.restores).map fun n => (t.core.readS (maskPlace n)).val.toNat

/-- The sources whose values a tape records, in field order (R271). -/
def recordedSources (i : Instr) : List SOp :=
  match i, vectorForm i with
  | _, some f => f.os.map .o
  | .agset _ _ a b, _ => [a, b]
  | .agstr _ _ a, _ | .agadd _ _ a, _ | .hld _ _ a, _ | .hst _ _ a, _ | .hsetf _ _ _ a, _ | .scl _ _ a, _ | .ymset _ _ a, _
  | .xmset _ _ a, _ | .vmset _ _ a, _ | .cfill _ _ a, _ | .rtset _ _ a, _ | .rld _ a, _ | .mts _ _ a, _ => [a]
  | .stage _ _ a b, _ | .ratom _ a b, _ | .stB _ b a _, _ | .stH _ b a _, _ | .stW _ b a _, _ | .stD _ b a _, _ => [a, b]
  | .catom _ a b c, _ => [a, b, c]
  | _, _ => []

/-- The slots that a tape records as a CMD with their values, those apart that end or split a tape (R271): class, opcode and
operands. -/
def recordedForm (i : Instr) : Option (Nat × Nat × Nat) :=
  match encodeFields i with
  | some (cls, op, _, opr) =>
    match i with
    | .stB .. | .stH .. | .stW .. | .stD .. | .mts .. | .wchk .. | .realign .. | .repb .. | .clkdiv .. | .fidset ..
    | .bankpwr .. => some (cls, op, opr)
    | _ => if 1 ≤ cls ∧ cls ≤ 5 ∧ op ≠ 0 then some (cls, op, opr) else none
  | none => none

/-- The SLOT of a class's position (R37, R270). -/
def recordedSlot (cls : Nat) (second : Bool) : Nat :=
  match cls with
  | 1 => if second then 2 else 1
  | 2 => 3
  | 3 => if second then 5 else 4
  | 4 => 6
  | 5 => 7
  | _ => 0

/-- The reasons of R274 for a tainted source, and the sources that give them. -/
def taintedSources (i : Instr) : Option (Nat × List SOp) :=
  match i with
  | .pbr _ _ a => some (0x0003, [a])
  | .loop _ a _ => some (0x0004, [a])
  | .mts _ _ a => some (0x0005, [a])
  | .waitsReg _ a => some (0x0006, [a])
  | .stB .. | .stH .. | .stW .. | .stD .. => some (0x0008, recordedSources i)
  | _ => match vectorForm i with
    | some f => some (0x0007, f.os.map .o)
    | none => if recordedSources i = [] then none else some (0x0006, recordedSources i)

/-- A slot of tile j that the tile runs from its code store, in a tape that is open and valid, and that takes no fault. -/
structure RunsRecorded (s u : State) (j : Nat) (t x : Tile) (i : Instr) : Prop where
  focus : s.focus = .tile j
  here : s.tile? j = some t
  runs : s.runs i
  live : t.core.suppressed = false
  fetched : s.imms = none
  begins : s.trap = none
  next : exec i s = .next u
  clean : u.trap = none
  after : u.tile? j = some x
  tape : t.rec_.exists_ = true ∧ t.rec_.open_ = true ∧ t.rec_.span = true ∧ t.rec_.recBit = true ∧ t.rec_.reason = 0

/-- What the first event of R274 leaves in the recorder. -/
def Recorder.invalid (r : Recorder) (reason cyc addr : Nat) : Prop :=
  r.tinv = true ∧ r.reason = reason ∧ r.invCyc = cyc ∧ r.invAddr = addr

/-! ## Events (chapters 8 to 16) -/

/-- An event counter x after an update with v: the value itself, the sum that stops at 2^64 - 1, or the larger (R292). -/
def updated (op : EvOp) (x v : Word) : Word :=
  match op with
  | .set => v
  | .add => BitVec.ofNat 64 (min (x.toNat + v.toNat) (2 ^ 64 - 1))
  | .max => BitVec.ofNat 64 (max x.toNat v.toNat)

/-- What a change of the power inputs leaves: the event of a lowered cap is raised (R395). -/
def State.withPower (s : State) (m : Module) : State :=
  if m.ceil < s.mod_.ceil ∨ m.sus < s.mod_.sus then ({ s with mod_ := m }).raiseEvt 1 else { s with mod_ := m }

/-- The power inputs after an event that changes them (R395, R396); PWRCAP does not work after a failed boot (R397). -/
def powerInput : Instr → Module → Option Module
  | .pwrcapWrite level, m => if m.feat = 0 then none else some { m with caplvl := level.val }
  | .inputPowerChange level, m => some { m with inlvl := level.val }
  | .coolantChange flow inlet, m =>
    some { m with flow := flow, inlet := inlet, cool := if 40 ≤ flow ∧ inlet ≤ 30 then 7 else if 40 ≤ flow ∧ inlet ≤ 35 then 5
      else if 20 ≤ flow ∧ inlet ≤ 40 then 2 else 0 }
  | _, _ => none

/-- The walker of queue q finds the entry e, of the bytes bs, at its position, and the state after its reading is s1
(R290, R291). -/
def State.presents (s : State) (q : Fin 20) (s1 : State) (e : Entry) (bs : List Byte) : Prop :=
  (s.queue q).hasEntry q = true ∧ s.fetchEntry q = (s1, .ok bs) ∧ Entry.of bs = e

/-- The fields of an entry that its type leaves at 0 (R291). -/
def Entry.only (e : Entry) (flags evt a32 w1 w2 : Bool) : Prop :=
  (flags = false → e.flags = 0) ∧ (evt = false → e.evt = 0) ∧ (a32 = false → e.a32 = 0) ∧ (w1 = false → e.w1 = 0) ∧
    (w2 = false → e.w2 = 0) ∧ e.w3 = 0

/-- A list that JUMP and CALL of an entry may name (R291). -/
def listNamed (va size : Nat) : Prop := va % 32 = 0 ∧ va < 2 ^ 48 ∧ size % 32 = 0 ∧ 32 ≤ size ∧ size ≤ 2 ^ 20

/-- The region of a number, and the launch that it runs. -/
def State.holds (s : State) (r : Nat) (x : Region) (l : Launch) : Prop :=
  s.region? r = some x ∧ s.launchOf r = some l


/-! ## Bundles and steps (R33 to R43, R122) -/

/-- The bundle of the instructions ws stands at pc of a code store: each slot's word and what it decodes to, the stop bit in
the last slot alone, no word uncorrectable, and every check of R39 passed. -/
structure BundleAt (m : Mem) (kind : CoreKind) (pc : Nat) (ws : List (Nat × Instr)) : Prop where
  aligned : pc % 4 = 0
  inside : pc + 4 * ws.length ≤ 2 ^ 18
  some_ : ws ≠ []
  few : ws.length ≤ (match kind with
    | .tile => 8
    | .lantern => 4)
  slots : ∀ (k : Nat) (x : Nat × Instr), ws[k]? = some x → m.read (pc + 4 * k) 4 = x.1 ∧ decodeSlot x.1 = .ok x.2 ∧
    x.1.testBit 31 = decide (k + 1 = ws.length) ∧ (m.mark ((pc + 4 * k) / 8)).err ≠ .uncorrectable
  checked : bundleBad kind (ws.map (·.1)) = none

/-- The slots xs execute one after another from s to u, and none takes a fault. -/
inductive Executes : List SlotRun → State → State → Prop where
  | nil (s : State) : Executes [] s s
  | cons (x : SlotRun) (xs : List SlotRun) (s t u : State) (h : exec x.insn (s.atSlot x) = .next t) (clean : t.trap = none)
      (rest : Executes xs t u) : Executes (x :: xs) s u

/-- The slots of a bundle by position; the second V and C slots are marked. -/
def slotsOf (ws : List (Nat × Instr)) : List SlotRun :=
  ws.zipIdx.map fun x =>
    { slot := x.2, insn := x.1.2, imms := none
      second := (slotClass x.1.1 == 1 || slotClass x.1.1 == 3) &&
        (ws.take x.2).any fun y => slotClass y.1 == slotClass x.1.1 }

/-! ## Memories (R42, R190, R191, R242) -/

/-- The scratchpad, the code store and the Taper memory of a tile are in their canonical form. -/
def Tile.canonical (t : Tile) : Prop := t.sp.wf = true ∧ t.code.wf = true ∧ t.tape.wf = true

/-- Every memory is in its canonical form: those of the module, those of the tiles, also of tiles that a pre-empted launch
keeps, and the SRAM of the Lanterns. -/
structure State.canonical (s : State) : Prop where
  dram : s.dram.wf = true
  host : s.host.wf = true
  tiles : ∀ t ∈ s.tiles, t.canonical
  kept : ∀ l ∈ s.launches, ∀ t ∈ l.keptTiles, t.canonical
  lanterns : ∀ n, (s.lanterns.get n).sram.wf = true

end Sys2Proof.Machine
end

