-- ==== Sys2Proof/Certificates/Slice0/Obligations.lean ====
section
/-! DEFINITION. The statements for the provers, one `Obligations.<Name> : Prop` each. -/

open Sys2Proof Sys2Proof.Machine

/-! ## Integer computation, predicates and targets (chapter 4) -/

/-- The register forms of R113, R118 and R119: the result of the two sources in integer arithmetic, with their marks
together, lands in d and in l after the latency of the instruction; nothing else changes. -/
def Obligations.IntegerResults : Prop :=
  ∀ i f s c, twoSource i = some f → Issues s c f.g [f.a, f.b, f.d] [] →
    let x := s.operand c 0 f.a
    let y := s.operand c 1 f.b
    Completes i s (s.result f.d ⟨integerResult i x.val y.val, x.taint || y.taint, x.poison || y.poison⟩ f.lo f.ls)

/-- R114, R115 and R117: the immediate forms are the register forms with the extended immediate, and the mark is that of a;
LI, LIS, CLZ and POPC. -/
def Obligations.ImmediateAndUnaryResults : Prop :=
  (∀ i g d a n s c, withImmediate i = some (g, d, a, n) → Issues s c g [a, d] [] →
     let x := s.operand c 0 a
     Completes i s (s.result d ⟨integerResult i x.val n, x.taint, x.poison⟩ 1 2)) ∧
  (∀ g d a s c,
     (∀ n, Issues s c g [d] [] → Completes (.li g d n) s (s.result d ⟨BitVec.ofInt 64 n.toInt, false, false⟩ 1 2)) ∧
     (∀ n, Issues s c g [d, d] [] →
       let x := s.operand c 0 d
       Completes (.lis g d n) s
         (s.result d ⟨BitVec.ofNat 64 (x.val.toNat * 2 ^ 12 + n.toNat), x.taint, x.poison⟩ 1 2)) ∧
     (Issues s c g [a, d] [] →
       let x := s.operand c 0 a
       Completes (.clz g d a) s (s.result d ⟨BitVec.ofNat 64 (leadingZeros x.val), x.taint, x.poison⟩ 1 2) ∧
       Completes (.popc g d a) s (s.result d ⟨BitVec.ofNat 64 (oneBits x.val), x.taint, x.poison⟩ 1 2)))

/-- R116: SEL issues whatever its predicate reads, a poisoned one too, and selects by it as data. R120 and R121: the condition
and its complement land in the pair one control cycle after issue, with the marks of the sources. -/
def Obligations.SelectAndPredicateResults : Prop :=
  (∀ q d a b s c, s.coreOf s.focus = some c → c.suppressed = false → s.banksOn [a, b, d] →
     let p := c.readQ q
     let x := s.operand c 0 a
     let y := s.operand c 1 b
     Completes (.sel q d a b) s
       (s.result d ⟨if p.val then x.val else y.val, x.taint || y.taint || p.taint, x.poison || y.poison || p.poison⟩ 1 2)) ∧
  (∀ g k s c,
     (∀ cc a b v, Issues s c g [a, b] [] →
       let x := s.operand c 0 a
       let y := s.operand c 1 b
       (v = true ↔ comparison cc x.val y.val) →
       Completes (.cmp g k cc a b) s
         (s.lands (s.env.ctl + 1) [(1, .pair k ⟨v, x.taint || y.taint, x.poison || y.poison⟩)])) ∧
     (∀ cc a n v, Issues s c g [a] [] →
       let x := s.operand c 0 a
       (v = true ↔ comparison cc x.val (BitVec.ofInt 64 n.toInt)) →
       Completes (.cmpi g k cc a n) s (s.lands (s.env.ctl + 1) [(1, .pair k ⟨v, x.taint, x.poison⟩)])) ∧
     (∀ op x y v, Issues s c g [] [] →
       let p := c.readQ x
       let r := c.readQ y
       (v = true ↔ predicateLogic op (p.val = true) (r.val = true)) →
       Completes (.plog g k op x y) s
         (s.lands (s.env.ctl + 1) [(1, .pair k ⟨v, p.taint || r.taint, p.poison || r.poison⟩)])))

/-- R122, R125 to R128: PBT and PBR write a b register one control cycle after issue. A transfer outside the delay bundles of
another goes to its target after its number of delay bundles; CALL, at a CDEPTH below 15, and JAL link the bundle after them. -/
def Obligations.TargetsAndTransfers : Prop :=
  (∀ g b s c,
     (∀ n, Issues s c g [] [] → Completes (.pbt g b n) s (s.lands (s.env.ctl + 1) [(1, .breg b (slotsFromPc c n))])) ∧
     (∀ a, Issues s c g [a] [a] →
       Completes (.pbr g b a) s
         (s.lands (s.env.ctl + 1) [(1, .breg b (BitVec.ofNat 32 (s.operand c 0 a).val.toNat))]))) ∧
  (∀ g b s c, Issues s c g [] [] → c.xfer = none →
     let target := (c.b.get b).toNat
     Completes (.br g b) s (s.transfers ⟨.br, target, 2, c.cdepth⟩ none) ∧
     Completes (.jr g b) s (s.transfers ⟨.jr, target, 1, c.cdepth⟩ none) ∧
     Completes (.ret g) s (s.transfers ⟨.ret, (c.b.get 3).toNat, 3, c.cdepth⟩ none) ∧
     (∀ n, Completes (.jal g b n) s (s.transfers ⟨.jal, (slotsFromPc c n).toNat, 1, c.cdepth⟩
       (some (b, s.linkOf c 1)))) ∧
     (c.cdepth ≠ 15 → Completes (.call g b) s (s.transfers ⟨.call, target, 3, c.cdepth⟩ (some (3, s.linkOf c 3)))))

/-! ## Transfers and loops (chapter 4) -/

/-- R129: LOOP opens a level over the n bundles that follow, unless eight are open or its body would end past the
innermost one of its call depth. -/
def Obligations.LoopOpensLevel : Prop :=
  ∀ g a n s c, Issues s c g [a] [a] → c.xfer = none → c.loops.length < 8 →
    let count := (s.operand c 0 a).val.toNat
    let last := s.bundleAfter c n.toNat
    (∀ l, c.loops.head? = some l → l.cdepth = c.cdepth → last ≤ l.last) →
    Completes (.loop g a n) s
      (s.modCore fun k => { k with seq := k.seq + 1, ctl := some (.loop
        ⟨s.bundleAfter c 1, last, max count 1, count == 0, c.cdepth⟩) })

/-! ## Scratchpad and special registers (chapter 4) -/

/-- R131 to R133: a load on a tile whose address fits reads its bytes at the bank cycle, and a store writes them. -/
def Obligations.LoadsAndStoresOnTiles : Prop :=
  (∀ i g d a n size signed s t, loadForm i = some (g, d, a, n, size, signed) → IssuesOn s t g [a, d] [] →
     let x := s.operand t.core 0 a
     let addr := offsetAddress x.val n size
     addressFits x addr size →
     Completes i s (s.accesses s.bankCycle (s.env.ctl + 4) (.load size signed addr.toNat d))) ∧
  (∀ i g d a n size s t, storeForm i = some (g, d, a, n, size) → IssuesOn s t g [a, d] [] →
     let x := s.operand t.core 0 a
     let y := s.operand t.core 1 d
     let addr := offsetAddress x.val n size
     addressFits x addr size →
     Completes i s (s.accesses s.bankCycle 0 (.store size addr.toNat y.val y.poison)))

/-- R131 and R134: an atomic or CAS on a tile, on the eight bytes at the value of a. -/
def Obligations.AtomicsOnTiles : Prop :=
  ∀ i g op d a b s t, atomForm i = some (g, op, d, a, b) →
    IssuesOn s t g ([a, b] ++ (if op = .cas then [d] else []) ++ [d]) [] →
    let x := s.operand t.core 0 a
    addressFits x x.val 8 →
    Completes i s (s.accesses s.bankCycle (s.env.ctl + 4)
      (.atom op x.val.toNat (s.operand t.core 1 b) (if op = .cas then s.operand t.core 2 d else .zero) d))

/-- R135: MFS delivers the special register as of issue, three control cycles later, with the taint of its table; MTS to an
index that the core has lands one control cycle after issue; either takes 0x0104 for another index. R1, R103 to R110, R352 and R354:
what every register of a tile, and those that every core has, read, with their taint. -/
def Obligations.SpecialRegisterAccesses : Prop :=
  (∀ g d idx s c v taint, Issues s c g [d] [] → s.readSpecial idx.toNat = some (v, taint) →
     Completes (.mfs g d idx) s (s.result d ⟨word v, taint, false⟩ 3 3)) ∧
  (∀ g idx a s c, Issues s c g [a] [a] → sregOn (agentKind s.focus) idx = true →
     Completes (.mts g idx a) s (s.lands 0 [(1, .special idx (s.operand c 0 a).val)])) ∧
  (∀ kind (idx : BitVec 12), sregOn kind idx = true ↔ hasSpecial kind idx.toNat) ∧
  (∀ g d a idx s c, ¬hasSpecial (agentKind s.focus) idx.toNat →
     let f : Trap := ⟨0x0104, BitVec.ofNat 64 (c.pc + 4 * s.slot), s.slot⟩
     (Issues s c g [d] [] → TrapsWith (.mfs g d idx) s f) ∧ (Issues s c g [a] [a] → TrapsWith (.mts g idx a) s f)) ∧
  (∀ (s : State) t r, s.focusTile? = some t → s.region? t.region = some r →
     let c := s.cluster t
     let reads (idx v : Nat) (taint : Bool) : Prop := s.readSpecial idx = some (v, taint)
     reads 0x000 (t.glt % 2 ^ 15 * 2 ^ 8 + t.hix % 2 ^ 8) true ∧ reads 0x001 (t.ty % 16 * 16 + t.tx % 16) false ∧
     (∃ v, reads 0x002 v true ∧ IsCxy t c v) ∧ (∃ v, reads 0x003 v false ∧ IsRegion r v) ∧
     (∀ n : Fin 8, reads (0x010 + n.val) (t.lid.get n % 2 ^ 16) false) ∧
     (∃ v, reads 0x020 v true ∧ IsStatus t c v) ∧ reads 0x021 t.fflags.toNat true ∧ reads 0x022 t.frm.toNat false ∧
     (∃ v, reads 0x023 v true ∧ IsCause t.cause v) ∧ reads 0x024 t.cause.faddr.toNat true ∧ reads 0x025 t.cause.fcyc true ∧
     reads 0x030 r.launch true ∧ reads 0x031 0x1FFFC0 false ∧
     (∃ v, reads 0x040 v true ∧ ∀ n, v.testBit n = if h : n < 48 then (t.core.readS (.s ⟨n, h⟩)).taint else false) ∧
     (∃ v, reads 0x041 v true ∧ v < 2 ^ 25 ∧ v.testBit 24 = t.core.l.taint ∧
       (∀ n : Fin 8, v.testBit (16 + n.val) = (t.core.readS (.o n)).taint) ∧
       ∀ n : Fin 16, v.testBit n.val = (decide (2 ≤ n.val) && (t.core.readQ n).taint)) ∧
     (∀ n : Fin 4, reads (0x060 + n.val) (t.slerr.get n % 2 ^ 32) true) ∧
     reads 0x064 (t.spceLast % 2 ^ 18 * 2 ^ 32 + t.spceCount % 2 ^ 32) true ∧
     reads 0x065 ((if t.csceTape then 2 ^ 63 else 0) + t.csceLast % 2 ^ 15 * 2 ^ 32 + t.csceCount % 2 ^ 32) true ∧
     (∃ v, reads 0x070 v true ∧ IsPwrlvl t c s.mod_.sus v) ∧ (∃ v, reads 0x071 v true ∧ IsCdiv c v)) ∧
  (∀ (s : State) c, s.coreOf s.focus = some c → (∀ t, s.focusTile? = some t → (s.region? t.region).isSome = true) →
     let reads (idx v : Nat) : Prop := s.readSpecial idx = some (v, false)
     reads 0x050 3 ∧ reads 0x051 3 ∧ reads 0x080 (c.cdepth % 16 * 2 ^ 8 + c.loops.length % 16) ∧
     (∀ n : Fin 8, reads (0x088 + n.val) (match c.loops.reverse[n.val]? with
       | some l => l.cnt
       | none => 0)) ∧
     (∀ n : Fin 8, reads (0x090 + n.val) (match c.loops.reverse[n.val]? with
       | some l => l.last % 2 ^ 32 * 2 ^ 32 + l.start % 2 ^ 32
       | none => 0)) ∧
     (∀ n : Fin 4, reads (0x0A0 + n.val) (c.b.get n).toNat)) ∧
  (∀ (s : State) n, s.focus = .lantern n → s.readSpecial 0x004 = some (n.val, false))

/-! ## Address registers (chapter 5) -/

/-- R151, R153 and R156: AGOUT, AGRD, HGETF, VMGET and MKGET deliver a register of the tile as of issue two control cycles
later, tainted; the latch l is not written, and a position that lands in the cycle of issue is not seen (which
landings that leaves out is log entry 109). R148 to R150, R153 and R155: what lands one control cycle after issue; AGSET and
AGSTR fault on reserved bits. -/
def Obligations.AddressRegisterAccesses : Prop :=
  (∀ i g d v p s t, addressRead i t s.env.scy = some (g, d, v, p) → IssuesOn s t g [d] [] →
     Completes i s (s.lands 0 [(2, .reg d ⟨v, true, p⟩)])) ∧
  (∀ s t,
     (∀ i g a eff, addressWrite i t (s.operand t.core 0 a).val = some (g, a, eff) → IssuesOn s t g [a] [a] →
       Completes i s (s.lands 0 [(1, eff)])) ∧
     (∀ g n a b, IssuesOn s t g [a, b] [a, b] →
       let p := (s.operand t.core 0 a).val
       let c := (s.operand t.core 1 b).val
       (p.toNat < 2 ^ 24 → c.toNat < 2 ^ 24 → Completes (.agset g n a b) s (s.lands 0 [(1, .agSet n p c)])) ∧
       (2 ^ 24 ≤ p.toNat ∨ 2 ^ 24 ≤ c.toNat →
         TrapsWith (.agset g n a b) s ⟨0x0104, BitVec.ofNat 64 (t.core.pc + 4 * s.slot), s.slot⟩)) ∧
     (∀ g n a, IssuesOn s t g [a] [a] →
       let w := (s.operand t.core 0 a).val
       (w.toNat < 2 ^ 48 → Completes (.agstr g n a) s (s.lands 0 [(1, .agStr n w)])) ∧
       (2 ^ 48 ≤ w.toNat →
         TrapsWith (.agstr g n a) s ⟨0x0104, BitVec.ofNat 64 (t.core.pc + 4 * s.slot), s.slot⟩)) ∧
     (∀ g n w, IssuesOn s t g [] [] → Completes (.agblk g n w) s (s.lands 0 [(1, .agBw n (BitVec.ofNat 2 w.val))])))

/-- R152 and R154: HLD, HST and SCL decide their access at the bank cycle. -/
def Obligations.HandleAndScaleAccesses : Prop :=
  ∀ g h k a s t, IssuesOn s t g [a] [] →
    let x := s.operand t.core 0 a
    (addressFits x x.val 32 →
      Completes (.hld g h a) s (s.accesses s.bankCycle 0 (.hld h x.val.toNat)) ∧
      Completes (.hst g h a) s
        (s.accesses s.bankCycle 0 (.hst x.val.toNat (t.handles.get h).bits (t.handles.get h).poison))) ∧
    (x.poison = false → x.val.toNat + 256 ≤ 2 ^ 21 → x.val.toNat % 32 = 0 →
      Completes (.scl g k a) s (s.accesses s.bankCycle 0 (.scl k x.val.toNat)))

/-- R139: from the start of its sequence, n uses leave a generator at the inner index n mod the inner count and at the
outer index n div the inner count mod the outer count; the rest of it is unchanged. -/
def Obligations.GeneratorWalks : Prop :=
  ∀ (x : Gen) (n : Nat), x.ii = 0 → x.oi = 0 →
    let inner := x.icnt.toNat + 1
    let outer := x.ocnt.toNat + 1
    x.steps n = { x with ii := BitVec.ofNat 12 (n % inner), oi := BitVec.ofNat 12 (n / inner % outer) }

/-! ## Vector instructions (chapter 7) -/

/-- R194, R195 and R197: every vector instruction whose unit is free and whose operands fit latches its state, takes its
unit for the vector cycle, decides its access and advances the generators that it names; a second one on a unit in one
vector cycle takes 0x0102, and does so before its addresses are checked (log entry 23). -/
def Obligations.VectorIssues : Prop :=
  ∀ i f s t, vectorForm i = some f → IssuesOn s t f.g (f.os.map .o) [] →
    let v := s.latch t i f
    (t.vbusy.get s.vectorUnit ≠ some s.env.vec → (∀ x ∈ v.operands, operandFits x) →
      Completes i s ((s.lands 0 (t.positions (namedGens f.a f.b f.d))).modFocus fun x =>
        { x.decides s (s.vectorAccess v).1 (s.vectorAccess v).2 with vbusy := x.vbusy.set s.vectorUnit (some s.env.vec) })) ∧
    (t.vbusy.get s.vectorUnit = some s.env.vec →
      TrapsWith i s ⟨0x0102, BitVec.ofNat 64 (t.core.pc + 4 * s.slot), s.slot⟩)

/-- R68, R193, R198 and R200: on an integer type, element i of the line that is written is the exact result of the
elements i read, wrapped to the width; its bytes are little-endian, an element that is not enabled is not written, and no
flag is raised. R75, R76, R198 to R200, R205, R210 and R213: the same of every other elementwise form, with the flags of the
enabled lanes together. R201 to R204, R206 to R209, R211, R212, R214 and R215: the results of the masks, of VSEL, VCVT, the
reductions, the scan, compress and expand, the votes, the count, and the sorts. R217 and R218: the element addresses of a gather or
scatter, the checks of its window, the elements that a gather delivers, and the bytes that a scatter writes in a line; that the
FADDR of a poisoned index is the address of the word that holds it is log entry 20. -/
def Obligations.VectorIntegerLanes : Prop :=
  (∀ (v : VCtx) ls width signed i, vfmt (vTypeOf v.op) = .int width signed → i < 64 / vwidth (vTypeOf v.op) →
    let w := vwidth (vTypeOf v.op)
    let element (k : Nat) : Int := intValue width signed ((ls.getD k Line.none).elem w i)
    ∀ r, laneInteger v.op width (element 0) (element 1) (element 2) = some r →
      (v.result ls).effs = [] ∧ ∃ out, (v.result ls).writes = [out] ∧ out.addr = v.addrD.toNat ∧ ∀ j < w,
        out.bytes[i * w + j]? = some (if laneOn v.mask w i then some (BitVec.ofInt 8 (r / 256 ^ j)) else none)) ∧
  (∀ (v : VCtx) ls,
    let w := vwidth (vTypeOf v.op)
    let n := 64 / w
    let on := laneOn v.mask w
    let a (i : Nat) : Nat := (ls.getD 0 Line.none).elem w i
    let b (i : Nat) : Nat := (ls.getD 1 Line.none).elem w i
    let fmt := vfmt (vTypeOf v.op)
    let spoilt := (ls.getD 0 Line.none).anyPz
    let r := v.result ls
    let addr := v.addrD.toNat
    -- elementwise
    (∀ f : Nat → Nat × FFlags, (∀ i < n, laneResult v ls i = some (f i)) →
      (∃ out, r.writes = [out] ∧ out.carries addr w n fun i => if on i then some (f i).1 else none) ∧
        raisedBy r.effs n on fun i => (f i).2) ∧
    -- masks, and selection by one
    (∀ k (f : Nat → Bool × FFlags), (∀ i < n, maskForm v.op fmt (a i) (b i) = some (k, f i)) → r.writes = [] ∧
      ∃ m es, r.effs = .vmask k m :: es ∧ raisedBy es n on (fun i => (f i).2) ∧
        ∀ j < 64, m.getLsbD j = (on (j / w) && (f (j / w)).1)) ∧
    (∀ g t m x y z, v.op = .vsel g t m x y z → r.effs = [] ∧
      ∃ out, r.writes = [out] ∧ out.carries addr w n fun i => some (if on i then a i else b i)) ∧
    -- conversion
    (∀ g dt m x y st, v.op = .vcvt g dt m x y st →
      let k := 64 / max (vwidth dt) (vwidth st)
      let f (i : Nat) : Nat × FFlags := convert (vfmt st) (vfmt dt) v.frm ((ls.getD 0 Line.none).elem (vwidth st) i)
      let en := laneOn v.mask (vwidth dt)
      (∃ out, r.writes = [out] ∧ out.carries addr (vwidth dt) k fun i => if en i then some (f i).1 else none) ∧
        raisedBy r.effs k en fun i => (f i).2) ∧
    -- reductions
    (∀ g t m k x fn bits signed, v.op = .vred g t m k x fn → fmt = .int bits signed → r.writes = [] ∧
      ∃ y, r.effs = [.reg (.o k) ⟨y, true, spoilt⟩] ∧ reducesTo fn bits signed (v.lanes.map a) y) ∧
    (∀ g t m k x fn f, v.op = .vred g t m k x fn → fmt = .flt f → r.writes = [] ∧
      let join := match fn with
        | .min => fminmax f false
        | .max => fminmax f true
        | .add | .and | .or | .xor => fadd f v.frm
      let y := joinTree join 7 ((List.range n).map fun i => if on i then some (a i) else none)
      r.effs = .reg (.o k) ⟨BitVec.ofNat 64 (y.1.getD 0), true, spoilt⟩ :: (if y.2 = 0 then [] else [.flags y.2])) ∧
    (∀ g t m k x fn, v.op = .vredx g t m k x fn → r.writes = [] ∧ ∃ y es, r.effs = .reg (.o k) ⟨y, true, spoilt⟩ :: es ∧
      (v.lanes = [] → y = 0xFFFF_FFFF_0000_0000#64) ∧
      (∀ i, (∀ j ∈ v.lanes, isNaN fmt (a j) = false) → extremeLane fn fmt a v.lanes i →
        y = BitVec.ofNat 64 (i * 2 ^ 32 + a i) ∧ es = []) ∧
      (∀ i f, fmt = .flt f → i ∈ v.lanes → isNaN fmt (a i) = true → (∀ j ∈ v.lanes, j < i → isNaN fmt (a j) = false) →
        y = BitVec.ofNat 64 (i * 2 ^ 32 + f.nan))) ∧
    -- scans
    (∀ g t m x y k bits signed, v.op = .vscan g t m x y k → fmt = .int bits signed →
      let upTo (i : Nat) : Int := v.o1.val.toInt + ((v.lanes.filter fun j => decide (j ≤ i)).map fun j =>
        intValue bits signed (a j)).sum
      r.effs = [.reg (.o k) ⟨BitVec.ofInt 64 (upTo n), true, v.o1.poison || spoilt⟩] ∧
        ∃ out, r.writes = [out] ∧
          out.carries addr w n fun i => if on i then some (upTo i % 2 ^ bits).toNat else none) ∧
    (∀ g t m x y k f, v.op = .vscan g t m x y k → fmt = .flt f →
      let upTo (i : Nat) : Nat := (v.lanes.filter fun j => decide (j < i)).foldl (fun s j => (fadd f v.frm s (a j)).1)
        (v.o1.val.toNat % 2 ^ (8 * w))
      ∃ es, r.effs = .reg (.o k) ⟨BitVec.ofNat 64 (upTo n), true, v.o1.poison || spoilt⟩ :: es ∧
        raisedBy es n on (fun i => (fadd f v.frm (upTo i) (a i)).2) ∧
        ∃ out, r.writes = [out] ∧ out.carries addr w n fun i => if on i then some (upTo (i + 1)) else none) ∧
    -- compress and expand
    (∀ g t m x y k, v.op = .vcomp g t m x y k →
      r.effs = [.reg (.o k) ⟨BitVec.ofNat 64 v.lanes.length, true, spoilt⟩] ∧
        ∃ out, r.writes = [out] ∧ out.carries addr w n fun j => v.lanes[j]?.map a) ∧
    (∀ g t m x y k, v.op = .vexpd g t m x y k →
      r.effs = [.reg (.o k) ⟨BitVec.ofNat 64 v.lanes.length, true, spoilt⟩] ∧
        ∃ out, r.writes = [out] ∧ out.carries addr w n fun i =>
          if on i then some (a (v.lanes.filter fun j => decide (j < i)).length) else none) ∧
    -- votes and counts
    (∀ g t m k x y, v.op = .vany g t m k x → (y = true ↔ ∃ i ∈ v.lanes, nonZero fmt (a i)) →
      r.writes = [] ∧ r.effs = [.pair k ⟨y, true, spoilt⟩]) ∧
    (∀ g t m k x y, v.op = .vall g t m k x → (y = true ↔ ∀ i ∈ v.lanes, nonZero fmt (a i)) →
      r.writes = [] ∧ r.effs = [.pair k ⟨y, true, spoilt⟩]) ∧
    (∀ g t m k x (j : BitVec 64), v.op = .vpopm g t m k x → v.addrA = (j.toNat : Int) → r.writes = [] ∧
      r.effs = [.reg (.o k) ⟨BitVec.ofNat 64 (v.lanes.filter (laneOn j w)).length, true, false⟩]) ∧
    -- sorts
    (∀ ps : List KeyPair, w = 4 →
      (∀ g t m x y, v.op = .vsrt g t m x y → ps.Perm (pairsOf v.mask 0 (ls.getD 0 Line.none) (ls.getD 1 Line.none)) →
        ps.Pairwise (fun p q => pairBefore t p q = true) → v.sorted t ps r) ∧
      (∀ g t m x y z, v.op = .vmrg g t m x y z →
        ps.Perm (pairsOf v.mask 0 (ls.getD 0 Line.none) (ls.getD 1 Line.none) ++
          pairsOf v.mask 1 (ls.getD 2 Line.none) (ls.getD 3 Line.none)) →
        ps.Pairwise (fun p q => pairBefore t p q = true) → v.sorted t ps r))) ∧
  -- gather and scatter
  (∀ (v : VCtx) (idx : List Nat) (pz : List Bool),
    let w := vwidth (vTypeOf v.op)
    let place (i : Nat) : Nat := v.table + idx.getD i 0 * w
    let bad (i : Nat) : Prop := ((pz.drop (i * w)).take w).any id = true
    (v.windowFault idx pz = none ↔ ∀ i ∈ v.lanes, ¬bad i ∧ place i + w ≤ 2 ^ 21) ∧
    (∀ i ∈ v.lanes, (∀ j ∈ v.lanes, j < i → ¬bad j ∧ place j + w ≤ 2 ^ 21) →
      (bad i → v.windowFault idx pz = some (0x0306, (v.addrB.toNat + i * w) / 8 * 8)) ∧
      (¬bad i → 2 ^ 21 < place i + w → v.windowFault idx pz = some (0x0301, place i))) ∧
    (∀ (data : List Byte) line j, j < 64 →
      let out := v.scatterLine idx data pz line
      out.addr = line ∧
        (∀ i ∈ v.lanes, place i / 64 * 64 = line → place i ≤ line + j → line + j < place i + w →
          (∀ k ∈ v.lanes, i < k → ¬(place k / 64 * 64 = line ∧ place k ≤ line + j ∧ line + j < place k + w)) →
          out.bytes[j]? = some (some (data.getD (i * w + (line + j - place i)) 0))) ∧
        ((∀ i ∈ v.lanes, ¬(place i / 64 * 64 = line ∧ place i ≤ line + j ∧ line + j < place i + w)) →
          out.bytes[j]? = some none)) ∧
    (∀ (s : State) t i x scy data got g ty m a d b, v.op = .vgath g ty m a d b → s.tile? i = some t →
      (∀ n, (t.sp.mark n).err = .clean) → (∀ c, 3 ≤ c → v.served idx c = []) →
      (∀ k ∈ v.lanes, ∀ j < w, ∃ p, got.find? (fun y => y.1 == place k + j) = some (place k + j, t.sp.byte (place k + j), p)) →
      ∃ out, s.doWindow i x scy v idx data 3 got pz = s.modTile i (fun u =>
          { u with accs := u.accs ++ [{ x with due := ⟨.vec, x.due.at_ + 2⟩, op := .vwrite [out] [] }] }) ∧
        out.carries v.addrD.toNat w (64 / w) fun k =>
          if laneOn v.mask w k then some (t.sp.read (place k) w) else none))

/-! ## Matrix instructions (chapter 6) -/

/-- R160 and R161: with no soft error, the partial sums of a step over every pair of planes make exactly the sum of the
64 element products. R172: with none the contribution is the same at every level and discards nothing. R167, R168 and R170:
where every corrupted partial is one of a dim slice and its mismatch is observed, the step adds no more than the exact sum, and
less by no more than its discards times the most that the dim slices could add; where a bright partial is corrupted, it is
added as formed, and a mismatch poisons the output. -/
def Obligations.MatrixStepIsExact : Prop :=
  (∀ (ga gb : PlaneGeo) (a b : PlaneRow) (idx j level : Nat),
    ga.planes ≤ 8 → gb.planes ≤ 8 → ga.w ∈ [8, 16, 32, 64] → gb.w ∈ [8, 16, 32, 64] →
    (outputStep ga gb a b idx j level []).1.amount = ((List.range 64).map (elementProduct ga gb a b)).sum) ∧
  (∀ (ga gb : PlaneGeo) (a b : PlaneRow) (idx j level : Nat),
    let clean := (outputStep ga gb a b idx j level []).1
    let own := slicePairs ga gb j
    let spoilt := a.bad || b.bad || a.exps.any (·.2) || b.exps.any (·.2)
    (outputStep ga gb a b idx j level []).2 = [] ∧ clean = (outputStep ga gb a b idx j 0 []).1 ∧ clean.idx = idx ∧
    clean.disc = 0 ∧ clean.psn = spoilt ∧
    (∀ errs : List Residue,
      (∀ k ∈ dimSlices level, ∀ p ∈ own k, (ga.signed = true → p.1 + 1 ≠ ga.planes) ∧ (gb.signed = true → p.2 + 1 ≠ gb.planes)) →
      (∀ e ∈ errs, e.slice.val ∈ dimSlices level ∧ (e.formed - pairSum ga gb a b (own e.slice.val)) % 7 ≠ 0) →
      let r := (outputStep ga gb a b idx j level errs).1
      let most := ((dimSlices level).map fun k => pairMax ga gb a b (own k)).sum
      clean.amount - r.disc * most ≤ r.amount ∧ r.amount ≤ clean.amount ∧ r.psn = spoilt) ∧
    (∀ e : Residue, e.slice.val ∉ dimSlices level →
      let r := outputStep ga gb a b idx j level [e]
      let correct := pairSum ga gb a b (own e.slice.val)
      r.1.amount = clean.amount - correct + e.formed ∧ r.1.disc = 0 ∧
        (r.1.psn = true ↔ spoilt = true ∨ (e.formed - correct) % 7 ≠ 0)))

/-- R163, R175 to R177: MCLR clears its set at matrix cycle 1; MMUL and MMULB take the array path, count their K-elements
and read one plane step after another, MMULB its counts before. -/
def Obligations.MatrixMultiplyIssues : Prop :=
  ∀ g z s t, IssuesOn s t g [] [] →
    Completes (.mclr g z) s (s.begun.modFocus fun x =>
      { x with mtasks := x.mtasks ++ [⟨⟨.mat, s.env.mat + 1⟩, x.core.seq, .clear z⟩] }) ∧
    (∀ pair ha hb (n : Fin 32), s.multiplies t z (t.handles.get ha) (t.handles.get hb) (n.val + 1) →
      let c := mctxOf (.mmul g z pair ha hb n) s t.issued pathArray z pair (t.handles.get ha).bits (t.handles.get hb).bits
        (n.val + 1)
      Completes (.mmul g z pair ha hb n) s
        (s.begun.modFocus fun x => (x.addSteps z (64 * (n.val + 1))).startM pathArray c c.mulLast c.fetches)) ∧
    (∀ grp ha hb n, s.multiplies t z (t.handles.get ha) (t.handles.get hb) (hCols (t.handles.get ha).bits / 64) →
      let steps := hCols (t.handles.get ha).bits / 64
      let groups := 32 / groupRows grp
      let x := t.gens.get n
      let c := { mctxOf (.mmulb g z grp ha hb n) s t.issued pathArray z 0 (t.handles.get ha).bits (t.handles.get hb).bits
          steps with prefix_ := (groups + s.env.dm - 1) / s.env.dm, group := groupRows grp }
      let reads := (x.addrs groups).zipIdx.map fun y =>
        (⟨⟨.ref, s.env.scy + y.2 + 1⟩, t.core.seq + 1, .count y.2 (y.1 % 2 ^ 64).toNat⟩ : MTask)
      Completes (.mmulb g z grp ha hb n) s
        ((s.lands 0 [(1, .agPos n (x.steps groups).ii (x.steps groups).oi)]).modFocus fun x =>
          (x.addSteps z (64 * steps)).startM pathArray c c.mulLast (reads ++ c.fetches)))

/-- R163, R178 to R181: MOUT, MOUTR and MSTAT take the output path, MADDR the array path, MPACK and MUNPK the conversion
path, each for its number of matrix cycles. R88, R158 and R167: what a landing adds to the accumulators. R178 to R181: the rows
that MOUT, MOUTR and MSTAT write, the raw values that MADDR adds, the elements of MUNPK, and the plane words and scale bytes of
MPACK. -/
def Obligations.MatrixMoveIssues : Prop :=
  (∀ g z pair h s t, IssuesOn s t g [] [] →
    let x := t.handles.get h
    let ctx (i : Instr) (path : Fin 3) (pair : Fin 4) := mctxOf i s t.issued path z pair x.bits 0 0
    (outFits x →
      let c := ctx (.mout g z pair h) pathOutput pair
      Completes (.mout g z pair h) s (s.begun.modFocus fun u => u.startM pathOutput c 9 [c.task 1 .readSet])) ∧
    (rawFits x →
      let c := ctx (.moutr g z pair h) pathOutput pair
      Completes (.moutr g z pair h) s (s.begun.modFocus fun u => u.startM pathOutput c 289 [c.task 1 .readSet])) ∧
    (rawFits x →
      let c := ctx (.maddr g z pair h) pathArray pair
      Completes (.maddr g z pair h) s (s.begun.modFocus fun u =>
        u.startM pathArray c 288 ((List.range 32).map fun r => c.task (1 + 9 * r) (.rawRow r)))) ∧
    (statFits x →
      let c := ctx (.mstat g z h) pathOutput 0
      Completes (.mstat g z h) s (s.begun.modFocus fun u => u.startM pathOutput c 10 [c.task 1 .readSet])) ∧
    (∀ k (n : Fin 32),
      let y := t.handles.get k
      let steps := n.val + 1
      (packFits x y steps true →
        let c := mctxOf (.mpack g h k n) s t.issued pathConvert 0 0 x.bits y.bits steps
        Completes (.mpack g h k n) s (s.begun.modFocus fun u =>
          u.startM pathConvert c (4 * steps) ((List.range steps).map fun j => c.task (1 + 4 * j) (.pack j)))) ∧
      (packFits y x steps false →
        let c := mctxOf (.munpk g h k n) s t.issued pathConvert 0 0 x.bits y.bits steps
        Completes (.munpk g h k n) s (s.begun.modFocus fun u =>
          u.startM pathConvert c (4 * steps) ((List.range steps).map fun j => c.task (1 + 4 * j) (.unpack j)))))) ∧
  (∀ (x : AccSet) cs k, keysRise 0 x.cells = true → (x.cell k).dcnt ≤ 127 →
    let mine : List Contrib := cs.filter fun c => c.idx == k
    let y := x.addAll cs
    y.stepc = x.stepc ∧ (y.cell k).acc = (x.cell k).acc + BitVec.ofInt 576 (mine.map (·.amount)).sum ∧
      (y.cell k).psn = ((x.cell k).psn || mine.any (·.psn)) ∧
      (y.cell k).dcnt = min ((x.cell k).dcnt + (mine.map (·.disc)).sum) 127) ∧
  (∀ (c : MCtx) (t : Tile),
    let cell (r col : Nat) : AccCell := (t.acc.get c.z).cell (32 * r + col)
    let row (r : Nat) : Nat := hBase c.ha + r * hRstr c.ha
    let on (r col : Nat) : Bool := c.ym.getLsbD r && c.xm.getLsbD col
    (∀ f, elemFmt (hFmt c.ha) = some f → ∀ u < 8,
      (moutRows c t f u).1.length = ((List.range 4).filter fun k => c.ym.getLsbD (4 * u + k)).length ∧
      (∀ l ∈ (moutRows c t f u).1, ∃ k < 4, c.ym.getLsbD (4 * u + k) = true ∧
        l.carries (row (4 * u + k)) f.bytes 32 fun col => if c.xm.getLsbD col then
          some (roundOut f (hOrnd c.ha) c.frm (cell (4 * u + k) col).acc.toInt (-256)).1 else none) ∧
      ∀ k < 4, c.ym.getLsbD (4 * u + k) = true → ∃ l ∈ (moutRows c t f u).1, l.addr = row (4 * u + k)) ∧
    (∀ r < 32, (moutrRow c t r).carries (row r) 72 32 fun col => if on r col then some (cell r col).acc.toNat else none) ∧
    (∀ r < 32, (mstatRow c t r).carries (row r) 1 32 fun col =>
      some ((if (cell r col).psn then 128 else 0) + (cell r col).dcnt % 128)) ∧
    (∀ fid, (mstatSummary c t fid).addr = row 32 ∧ ∃ bs : List Byte, (mstatSummary c t fid).bytes = bs.map some ∧
      bs.length = 32 ∧ leNat (bs.take 8) = (t.acc.get c.z).stepc % 2 ^ 64 ∧ leNat ((bs.drop 24).take 1) = fid % 256 ∧
      leNat ((bs.drop 8).take 8) = ((t.acc.get c.z).cells.map fun y => y.2.dcnt).sum % 2 ^ 64 ∧
      leNat ((bs.drop 16).take 8) = ((t.acc.get c.z).cells.countP fun y => y.2.psn) % 2 ^ 64 ∧ leNat (bs.drop 25) = 0) ∧
    (∀ ef j x r, (c.unpackRow ef j (x, r)).1.carries (row r + 64 * j * ef.bytes) ef.bytes 64 fun k =>
      let g := geoOf c.hb
      some (match x.exponent g k with
        | some z => roundOut ef (hOrnd c.ha) c.frm (x.element g k) z
        | none => roundOut ef (hOrnd c.ha) c.frm 0 0).1)) ∧
  (∀ (s : State) i t c, s.tile? i = some t → (∀ w, (t.sp.mark w).err = .clean) →
    let task (n : Nat) (a : MAct) : MTask := ⟨⟨.mat, c.base + n⟩, c.seq, a⟩
    (∀ r < 32, s.rawRow i c r = if c.ym.getLsbD r = false then s else s.setTile i { t with mtasks := t.mtasks ++
      [task (12 + 9 * r) (.land (((List.range 32).filter fun col => c.xm.getLsbD col).map fun col =>
        let a := hBase c.ha + r * hRstr c.ha + 72 * col
        (⟨32 * r + col, (BitVec.ofNat 576 (t.sp.read a 72)).toInt, t.sp.poisoned a 72, 0⟩ : Contrib)))] }) ∧
    (∀ j pf ef, planeFmt (hFmt c.ha) = some pf → elemFmt (hFmt c.hb) = some ef →
      let n := min 32 (hRows c.ha)
      let w := blockW c.ha
      let tall := 64 / w
      let number := packedNumber t.sp c.ha c.hb pf ef j
      n % tall = 0 →
      ∃ planes scales u, s.packStep i c j = s.setTile i u ∧ u.sp = t.sp ∧ u.acc = t.acc ∧
        u.mtasks = t.mtasks ++ [task (4 + 4 * j) (.write (planes ++ scales) (c.base + 6 + 4 * j))] ∧ planes.length = n ∧
        (∀ r < n, ∃ l, planes[r]? = some l ∧
          l.carries (hBase c.ha + r * hRstr c.ha + j * hPstr c.ha) 8 pf.planes fun b =>
            some ((List.range 64).map fun k => if (BitVec.ofInt 64 (number r k)).getLsbD b then 2 ^ k else 0).sum) ∧
        (pf.scaled = false → scales = []) ∧
        (pf.scaled = true → ∃ l, scales = [l] ∧ l.addr = hSbase c.ha + 32 * j ∧ l.bytes.length = 32 ∧
          (∀ br < n / tall, ∀ bk < tall, l.bytes[br * tall + bk]? =
            some (some (BitVec.ofInt 8 (packedBlock t.sp c.ha c.hb pf ef j br bk).1))) ∧
          ∀ k, n ≤ k → k < 32 → l.bytes[k]? = some none)))

/-! ## Bulk copies (chapter 8) -/

/-- R142, R225 and R226: CPYIN, CPYOUT, CPYLOC, CFILL and STAGE whose handles and list fit read the list at the bank cycle; a
STAGE whose handle fits and whose words break R244 takes 0x0104 (the order is log entry 23). -/
def Obligations.CopiesReadTheirList : Prop :=
  ∀ i g h k srcs s t, copyForm i = some (g, h, k, srcs) → IssuesOn s t g srcs srcs →
    let x := t.handles.get h
    let v (n : Nat) : SReg := (srcs[n]?.map (s.operand t.core n)).getD .zero
    ((isStage i = true → stageBad (v 0).val (v 1).val = false) → listFits x (t.handles.get k) →
      ∀ bits, patchBva s.slot s.imms.isSome t.rep.pd x.bits = .ok bits →
        Completes i s (s.accesses s.bankCycle 0 (.dlist i bits (t.handles.get k).bits (v 0) (v 1) (s.phaseNow t)))) ∧
    (isStage i = true → handleFits x → handleFits (t.handles.get k) → stageBad (v 0).val (v 1).val = true →
      TrapsWith i s ⟨0x0104, BitVec.ofNat 64 (t.core.pc + 4 * s.slot), s.slot⟩)

/-- R236, R245 to R247: SADV releases the slot at hand and starts the next transfer; CATOM enters its command; PUBLISH is
noted for the region. R231: a SADV or CATOM behind a command of its bundle whose list is unread waits for it (log entry 31);
what is entered may land from the time `timing.land` on (log entries 6 and 29). -/
def Obligations.StreamsAtomicsAndPublishes : Prop :=
  ∀ g s t,
    (∀ w p, IssuesOn s t g [] [] →
      let x := t.wins.get w
      (t.waitsBehind s.env.scy = true →
        Completes (.sadv g w p) s
          (s.accesses s.bankCycle 0 (.engine (.sadv g w p) [] (t.core.pc + 4 * s.slot) (s.phaseNow t)))) ∧
      (t.waitsBehind s.env.scy = false → x.mode = .streaming → p = x.cp → x.released ≠ x.n →
        x.st.get p = (if x.out then .empty else .ready) →
        ∃ u, t.issued.advance w p s.slot (s.phaseNow t) (t.core.seq + 1) (s.wcy + s.timing.land) = .ok u ∧
          (u.wins.get w).cp = (if x.out = false ∧ x.released + 1 = x.n then 0 else 1 - p) ∧
          Completes (.sadv g w p) s (s.begun.modFocus fun _ => u))) ∧
    (∀ v o c, IssuesOn s t g [v, o, c] [v, o, c] →
      let va := (s.operand t.core 0 v).val.toNat
      let k := (s.operand t.core 2 c).val.toNat
      let re := k.testBit 3
      let ret := k / 2 ^ 8 % 2 ^ 22
      let win : Fin 16 := Fin.ofNat 16 (k / 16)
      (t.waitsBehind s.env.scy = true → Completes (.catom g v o c) s (s.accesses s.bankCycle 0
        (.engine (.catom g v o c) ([v, o, c].zipIdx.map fun x => (s.operand t.core x.2 x.1).val) (t.core.pc + 4 * s.slot)
          (s.phaseNow t)))) ∧
      ∀ op p, t.waitsBehind s.env.scy = false → atomOfCode (k % 8) = some op → k < 2 ^ 30 → va % 8 = 0 → pageOf (s.pagesOf t) va = some p → p.ro = false →
        (re = true → p.phased = false ∧ p.rd = true ∧ ret + 8 ≤ 2 ^ 21 ∧ ret % 8 = 0) →
        (p.kind = 2 → s.mod_.hostAtoms = true ∧ (p.hc = true → op = .add ∨ op = .swap)) →
        t.roomFor win 0 8 →
        Completes (.catom g v o c) s (s.begun.modFocus fun x => x.startCmd
          { kind := .catom op (s.operand t.core 1 o).val (if re then some ret else none), win := win, phase := s.phaseNow t,
            ord := x.core.seq, slot := s.slot, iss := s.env.scy, sbase := if re then ret else 0, bva := va,
            dims := [⟨8, 0, 0⟩], total := 8, ready := s.wcy + s.timing.land })) ∧
    (IssuesOn s t g [] [] →
      Completes (.publish g) s (s.begun.notes .publish))

/-! ## Mesh (chapter 12) -/

/-- R316 to R321: ROUTE makes its entry active from the next reference cycle on; RTSET, whose segments R310 allows, and
TAGSET land one control cycle after issue; SEND and RECV advance their generator and decide their access at the bank
cycle; RATOM and RLD send a header. -/
def Obligations.MeshIssues : Prop :=
  ∀ g s t,
    (∀ e c, IssuesOn s t g [] [] → Completes (.route g e c) s (s.modCore fun k =>
      { k with seq := k.seq + 1, lands := k.lands ++ [⟨⟨.ref, s.env.scy + 1⟩, k.seq + 1, .act e c.toNat⟩] })) ∧
    (∀ e a, IssuesOn s t g [a] [a] →
      let v := (s.operand t.core 0 a).val
      ((∀ k < 4, segmentFits (v.toNat / 2 ^ (16 * k) % 2 ^ 16)) →
        Completes (.rtset g e a) s (s.lands 0 [(1, .route e v)])) ∧
      (∀ k < 4, ¬segmentFits (v.toNat / 2 ^ (16 * k) % 2 ^ 16) →
        TrapsWith (.rtset g e a) s ⟨0x0104, BitVec.ofNat 64 (t.core.pc + 4 * s.slot), s.slot⟩)) ∧
    (∀ a k, IssuesOn s t g [] [] → lineFits (t.gens.get a) →
      Completes (.send g a k) s ((s.lands 0 (t.positions [a])).modFocus
        (Tile.decides s s.bankCycle (.send (generatorAddress (t.gens.get a)).toNat (k.val + 1) t.stag)))) ∧
    (∀ a k chk lnk, IssuesOn s t g [] [] → lineFits (t.gens.get a) → (lnk = true → (s.portOf t).isSome = true) →
      Completes (.recv g a k chk lnk) s ((s.lands 0 (t.positions [a])).modFocus
        (Tile.decides s s.bankCycle (.recv (generatorAddress (t.gens.get a)).toNat (k.val + 1) chk lnk)))) ∧
    (∀ c o, IssuesOn s t g [c, o] [c] →
      let w := (s.operand t.core 0 c).val.toNat
      let x := s.operand t.core 1 o
      w < 2 ^ 24 → w / 2 ^ 21 ≠ 7 →
      Completes (.ratom g c o) s (s.accesses s.bankCycle 0
        (.header (BitVec.ofNat 128 (w + x.val.toNat * 2 ^ 64)) t.stag x.poison))) ∧
    (∀ c, IssuesOn s t g [c] [c] →
      let w := (s.operand t.core 0 c).val.toNat
      w < 2 ^ 21 →
      Completes (.rld g c) s (s.accesses s.bankCycle 0 (.header (BitVec.ofNat 128 w) t.stag false))) ∧
    (∀ tag (sel : Fin 4), IssuesOn s t g [] [] → Completes (.tagset g tag sel) s
      (s.lands 0 [(1, .tags (if sel.val % 2 = 1 then some tag else none) (if 2 ≤ sel.val then some tag else none))]))

/-! ## Control of the tile (chapters 14 and 15) -/

/-- R337, R342, R343 and R347: RDCYC and RDWALL deliver the counters of the issue cycle, WAITS stops the tile until the
cycle that it names, WAITW at cycle 0 has no further effect, and REALIGN is noted for its cluster. A WAITS that names a
cycle before the next bundle takes 0x0202, and a WAITW at a later cycle takes 0x0104. -/
def Obligations.CountersAndWaits : Prop :=
  ∀ g s t,
    (∀ d, IssuesOn s t g [d] [] →
      Completes (.rdcyc g d) s (s.result d ⟨BitVec.ofNat 64 s.env.scy, false, false⟩ 2 2)) ∧
    (∀ d c, Issues s c g [d] [] → Completes (.rdwall g d) s (s.result d ⟨BitVec.ofNat 64 s.wcy, true, false⟩ 2 2)) ∧
    (∀ n c, IssuesOn s t g [] [] → namesCycle s.env.scy n c →
      (s.env.scy + s.env.dc ≤ c →
        Completes (.waitsImm g n) s (s.begun.modFocus fun x => { x with run := .waiting c.toNat })) ∧
      (c < s.env.scy + s.env.dc → TrapsWith (.waitsImm g n) s ⟨0x0202, BitVec.ofInt 64 c, s.slot⟩)) ∧
    (∀ a, IssuesOn s t g [a] [a] →
      let v := (s.operand t.core 0 a).val
      (s.env.scy + s.env.dc ≤ v.toNat →
        Completes (.waitsReg g a) s (s.begun.modFocus fun x => { x with run := .waiting v.toNat })) ∧
      (v.toNat < s.env.scy + s.env.dc → TrapsWith (.waitsReg g a) s ⟨0x0202, v, s.slot⟩)) ∧
    (∀ j, IssuesOn s t g [] [] →
      (s.env.scy = 0 → Completes (.waitw g j) s s.begun) ∧
      (s.env.scy ≠ 0 → TrapsWith (.waitw g j) s ⟨0x0104, BitVec.ofNat 64 (t.core.pc + 4 * s.slot), s.slot⟩)) ∧
    (IssuesOn s t g [] [] → Completes (.realign g) s (s.begun.notes .realign))

/-- R183, R341, R353 and R359: CLKDIV programs the idle generator of its cluster, FIDSET asks for its level, WCHK notes its
check, and BANKPWR wakes a bank after 8 or 16 control cycles or puts one down after one. That naming the state STATUS shows changes
nothing during a wake too is log entry 60. -/
def Obligations.ClocksChecksAndBanks : Prop :=
  ∀ g s t, IssuesOn s t g [] [] →
    (∀ dc dm dv dk l, s.launchOf t.region = some l →
      Completes (.clkdiv g dc dm dv dk) s (s.begun.modCluster t.region t.cluster fun c =>
        Cluster.retarget
          { c with clk := { c.clk with pend := some ⟨dc.val + 1, dm.val + 1, dv.val + 1, dk.val + 1⟩ } } l.img)) ∧
    (∀ level, (∀ c ∈ t.mctx, c.multiplies s.env.mat = true → c.signDim level.val = false) →
      Completes (.fidset g level) s (s.begun.modFocus fun x => { x with pendFid := some (level.val, s.env.scy) })) ∧
    (∀ w p lead, 96 ≤ lead.toNat → (t.wins.get w).chk = none → ((t.wins.get w).mode = .streaming ∨ p = 0) →
      Completes (.wchk g w p lead) s (s.begun.modFocus fun x => x.modWin w fun y =>
        { y with chk := some (s.env.scy + lead.toNat), chkPar := p, raised := false })) ∧
    (∀ b,
      ((t.bankOf b).st = .on → Completes (.bankpwr g b .on) s s.begun) ∧
      (∀ st wait, (t.bankOf b).st = st → (st = .ret ∧ wait = 8 ∨ st = .off ∧ wait = 16) →
        Completes (.bankpwr g b .on) s (s.begun.modFocus fun x =>
          x.setBank b ⟨st, some ⟨.ctl, s.env.ctl + wait⟩⟩)) ∧
      (∀ st, st ≠ .on → s.inFlight t b = none →
        Completes (.bankpwr g b st) s (if (t.bankOf b).st = st then s.begun else s.lands 0 [(1, .bank b st)])))

/-- R281, R356, R371 and R372: PSWITCH counts its switch point and, where the variant changes, goes on at the address that
its table gives, in replay on the tape of that variant, where a record that cannot be read takes 0x0704; REPB and
HALT are noted for the region, and HALT ends the issue of the tile. The cycle and FADDR of that fault are log
entry 56. -/
def Obligations.SwitchPointsAndEnds : Prop :=
  ∀ g s t l, IssuesOn s t g [] [] → s.launchOf t.region = some l →
    (∀ n : BitVec 12, n ≠ 0 → n.toNat < l.img.switches.length →
      let c := s.cluster t
      let v := l.img.variantOf c.grant
      let stay := switchStays l.img c t.core s.env.scy
      let counted := s.begun.modFocus fun x =>
        { x with nsw := x.nsw + 1, lastLvl := c.grant, stay := v != c.variant && stay }
      (stay = true → Completes (.pswitch g n) s (counted.notes (.pswitch n.toNat c.grant none))) ∧
      (stay = false → s.imms = none → Completes (.pswitch g n) s
        ((counted.modCore fun k => { k with ctl := some (.goto (s.enterAddr l.img n.toNat v)) }).notes
          (.pswitch n.toNat c.grant (some v)))) ∧
      (stay = false → s.imms ≠ none →
        let next := t.switchTape n.toNat v s.env.scy s.env.dc (s.enterAddr l.img n.toNat v)
        (∀ u, next = .ok u → Completes (.pswitch g n) s
          ((counted.modFocus fun x => { x with rep := u.rep }).notes (.pswitch n.toNat c.grant (some v)))) ∧
        (∀ k, next = .error k → TrapsWith (.pswitch g n) s ⟨0x0704, BitVec.ofNat 64 (8 * k), s.slot⟩))) ∧
    (∀ n : BitVec 12, n ≠ 0 → n.toNat ≤ l.img.replays.length → t.core.nested = false →
      s.publishSuppressed t.core = false → Completes (.repb g n) s (s.begun.notes (.repb n.toNat))) ∧
    Completes (.halt g) s ((s.begun.modFocus fun x => { x with run := .done }).notes .halt)

/-- R271, R278 and R283: TREC starts a recording, or in a replay launch with its tape ready the replay; TEND ends the
recording. REC and REPLAY of STATUS change one control cycle after issue. R269, R270, R274, R279 and R283, the content of a
tape: the prologue and guards that TREC writes and checks; a second or misplaced TREC; the STATE and END that TEND writes, or
what it finds; the header; the END of a HALT; the CMD and IMM words of a recorded slot; the invalidation by a tainted guard or
source, and by an atomic. Where a TREC may stand in a replay launch is log entry 92, and that REC stays 1 until TEND log
entry 57. -/
def Obligations.RecordingStartsAndEnds : Prop :=
  ∀ g s t l, s.launchOf t.region = some l →
    let addr := t.core.pc + 4 * s.slot
    let scy := s.env.scy
    let place := s.env.scy = 0 ∨ (firstWaitw l.img.code l.img.entry).isSome = true ∧ s.env.scy = s.env.dc
    let gap := scy - t.rec_.last
    let leaves (i : Instr) (p : Tile → Prop) : Prop := ∃ u x, exec i s = .next u ∧ u.focusTile? = some x ∧ p x
    -- where it completes, and the bits of STATUS
    (IssuesOn s t g [] [] →
      (l.replay = false → place → t.rec_.recBit = false → Completes (.trec g) s (s.lands 0 [(1, .recBit true)])) ∧
      (l.replay = false → ¬(place ∧ t.rec_.recBit = false) → Completes (.trec g) s s.begun) ∧
      (l.replay = true → t.rep.ready = true → Completes (.trec g) s
        ((s.lands 0 [(1, .replayBit true)]).modFocus fun x =>
          let k := t.afterPrologue taperWords (t.rep.base + 8)
          { x with rep := { t.rep with active := true, last := scy, queue := [], body := [], stateAt := none, endAt := none,
                                       enter := none, prev := none, stateLast := false, pos := k, org := k, orgAt := scy,
                                       orgState := none } })) ∧
      (l.replay = true → t.rep.ready = false → Completes (.trec g) s s.begun) ∧
      Completes (.tend g) s (if t.rec_.recBit then s.lands 0 [(1, .recBit false)] else s.begun)) ∧
    -- the tape, where the guard carries no taint
    (IssuesOn s t g [] [] → t.tape.wf = true → (s.imms = none → (t.core.readQ g).taint = false) →
      -- TREC that starts a recording
      (l.replay = false → place → t.rec_.recBit = false → (∀ p ∈ l.img.patches, p.1 < 16) → (∀ p ∈ l.img.guards, p.1 < 2 ^ 12) →
        8 + (prologue l).length ≤ 2 ^ 15 → leaves (.trec g) fun x =>
          let bad := l.img.guards.any fun p => l.args.getD p.1 0 != p.2
          x.recordWords = prologue l ∧
          x.rec_ = { Recorder.reset with
            recBit := t.rec_.recBit, exists_ := true, open_ := true, variant := (s.cluster t).variant,
            fid := (s.cluster t).fid, last := scy, nrec := (prologue l).length, tinv := bad,
            reason := if bad then 0x000C else 0, invCyc := if bad then scy else 0, invAddr := if bad then addr else 0 }) ∧
      -- a second or misplaced TREC
      (l.replay = false → ¬(place ∧ t.rec_.recBit = false) → leaves (.trec g) fun x =>
        x.rec_.exists_ = true ∧ x.rec_.open_ = t.rec_.open_ ∧ x.rec_.recBit = t.rec_.recBit ∧
          (t.rec_.exists_ = false ∨ t.rec_.reason = 0 → x.rec_.invalid 0x0009 scy addr) ∧
          (t.rec_.exists_ = true → x.recordWords = t.recordWords) ∧
          (t.rec_.exists_ = true → t.rec_.reason ≠ 0 → x.rec_.reason = t.rec_.reason ∧ x.rec_.invCyc = t.rec_.invCyc)) ∧
      -- TEND of an open tape, and of one that is invalid
      (t.rec_.recBit = true → t.rec_.exists_ = true → t.rec_.open_ = true → t.rec_.reason = 0 → t.rec_.depth = 0 →
        (t.core.loops = [] → t.core.cdepth = 0 → t.core.sLast ≤ s.env.ctl → t.rec_.last ≤ scy → gap ≤ 4095 →
          8 + t.rec_.nrec + 64 ≤ 2 ^ 15 → leaves (.tend g) fun x =>
            x.headerHolds l ∧ x.rec_.ended = true ∧ x.rec_.open_ = false ∧ x.rec_.reason = 0 ∧ ∃ p, t.payload p ∧
              x.recordWords = t.recordWords ++
                [6 * 2 ^ 60 + 0xFFFF * 2 ^ 44 + p.length * 2 ^ 32 + t.core.pc % 2 ^ 32] ++ p ++ [0xF * 2 ^ 60 + gap * 2 ^ 48]) ∧
        (t.core.loops ≠ [] ∨ t.core.cdepth ≠ 0 → leaves (.tend g) fun x => x.rec_.invalid 0x000A scy addr ∧
          x.headerHolds l ∧ x.recordWords = t.recordWords) ∧
        (t.core.loops = [] → t.core.cdepth = 0 → s.env.ctl < t.core.sLast → leaves (.tend g) fun x =>
          x.rec_.invalid 0x000B scy addr ∧ x.headerHolds l ∧ x.recordWords = t.recordWords)) ∧
      (t.rec_.recBit = true → t.rec_.reason ≠ 0 → leaves (.tend g) fun x =>
        x.rec_.reason = t.rec_.reason ∧ x.rec_.open_ = false ∧ x.rec_.ended = false ∧ x.headerHolds l ∧
          x.recordWords = t.recordWords) ∧
      (t.rec_.recBit = false → leaves (.tend g) fun x => x.rec_ = t.rec_ ∧ x.tape = t.tape) ∧
      -- HALT
      (t.rec_.open_ = true → t.rec_.span = true → t.rec_.reason = 0 → t.rec_.depth = 0 → t.rec_.body = [] →
        t.rec_.last ≤ scy → gap ≤ 4095 → 8 + t.rec_.nrec + 2 ≤ 2 ^ 15 → leaves (.halt g) fun x =>
          x.recordWords = t.recordWords ++ [2 ^ 60 + gap * 2 ^ 48 + 0x60380000, 0xF * 2 ^ 60] ∧
            x.rec_.open_ = false ∧ x.rec_.ended = true ∧ x.rec_.last = scy)) ∧
    -- the slots of the span
    (∀ i u j x cls op gd opr, RunsRecorded s u j t x i → encodeFields i = some (cls, op, gd, opr) →
      let guard := t.core.readQ (Fin.ofNat 16 gd)
      (isNop i = false → isSel i = false → guard.taint = true →
        x.rec_.invalid (if cls = 0 then 0x0002 else 0x0001) scy addr) ∧
      (isNop i = false → guard.val = true → guard.taint = false →
        (∀ r ds, taintedSources i = some (r, ds) → (∃ d ∈ ds, (t.core.readS d).taint = true) → x.rec_.invalid r scy addr) ∧
        ((atomForm i).isSome = true → x.rec_.invalid 0x0008 scy addr) ∧
        (recordedForm i = some (cls, op, opr) → t.tape.wf = true → t.rec_.depth = 0 → t.rec_.body = [] → t.rec_.last ≤ scy →
          gap ≤ 4095 → (∀ d ∈ recordedSources i, (t.core.readS d).taint = false) →
          8 + t.rec_.nrec + 1 + 2 * (recordedSources i).length ≤ 2 ^ 15 →
          x.rec_.last = scy ∧ x.rec_.reason = 0 ∧ x.recordWords = t.recordWords ++
            (2 ^ 60 + gap * 2 ^ 48 + recordedSlot cls s.second * 2 ^ 45 + (cls * 2 ^ 28 + op * 2 ^ 18 + opr)) ::
              (recordedSources i).flatMap fun d => [2 * 2 ^ 60, (t.core.readS d).val.toNat])))

/-- R370: TRAP ends in the fault of its number; its own encoding names it. -/
def Obligations.TrapTakesItsFault : Prop :=
  ∀ g n s c, Issues s c g [] [] →
    TrapsWith (.trap g n) s ⟨0x0C00 + n.toNat, BitVec.ofNat 64 n.toNat, s.slot⟩

/-! ## Lantern memory (chapter 10) -/

/-- R132, R260, R284, R285 and R288: a load of a Lantern reads SRAM or control space at issue, and the frames of a device
address after its earlier stores, of which the data then come back; poisoned or lost data take 0x0306, the top address space
0x0301, and a failed translation its own code. That the frames are read at issue, after the queued stores, is log
entries 37 and 90. -/
def Obligations.LoadsOnLanterns : Prop :=
  ∀ i g d a n size signed s k, loadForm i = some (g, d, a, n, size, signed) → IssuesOnLantern s k g [a, d] [] →
    let addr := offsetAddress (s.operand (s.lanterns.get k).core 0 a).val n size
    let space := addr.toNat / 2 ^ 62
    let off := addr.toNat % 2 ^ 62
    let m := (s.lanterns.get k).sram
    (space = 1 → off + size ≤ 2 ^ 20 → m.uncorrectables off size = [] →
      Completes i s (s.result d ⟨loadValue size signed (m.read off size), true, false⟩ 4 4)) ∧
    (space = 2 → off + size ≤ 2 ^ 24 → size = 8 → off % 8 = 0 →
      Completes i s (s.result d ⟨s.begun.ctlWord off, true, false⟩ 4 4)) ∧
    (space = 0 → off + size ≤ 2 ^ 48 →
      (∀ t ps, s.begun.piecesVa k off size false = (t, .ok ps) →
        (∀ u bs, t.readDev k ps = (u, some bs) →
          Completes i s (u.queueDev k (.load d (loadValue size signed (leNat bs))) ps)) ∧
        (∀ u, t.readDev k ps = (u, none) → TrapsCounting i s u ⟨0x0306, addr, s.slot⟩)) ∧
      (∀ t code, s.begun.piecesVa k off size false = (t, .error code) → TrapsCounting i s t ⟨code, addr, s.slot⟩)) ∧
    (space = 3 → TrapsWith i s ⟨0x0301, addr, s.slot⟩)

/-- R133, R260, R284, R285 and R288: a store of a Lantern writes SRAM or control space at issue, and queues an access to a
device address. -/
def Obligations.StoresOnLanterns : Prop :=
  ∀ i g d a n size s k, storeForm i = some (g, d, a, n, size) → IssuesOnLantern s k g [a, d] [] →
    let addr := offsetAddress (s.operand (s.lanterns.get k).core 0 a).val n size
    let data := (s.operand (s.lanterns.get k).core 1 d).val
    let space := addr.toNat / 2 ^ 62
    let off := addr.toNat % 2 ^ 62
    (space = 1 → off + size ≤ 2 ^ 20 →
      (∀ w ∈ (s.lanterns.get k).sram.uncorrectables off size, off ≤ 8 * w ∧ 8 * w + 8 ≤ off + size) →
      Completes i s (s.begun.modLantern k fun l => { l with sram := l.sram.write off (leBytes size data.toNat) false })) ∧
    (space = 2 → off + size ≤ 2 ^ 24 → size = 8 → off % 8 = 0 → Completes i s (s.begun.writeCtl (.lantern k) off data)) ∧
    (space = 0 → off + size ≤ 2 ^ 48 →
      (∀ t ps, s.begun.piecesVa k off size true = (t, .ok ps) →
        Completes i s (t.queueDev k (.store size data) ps)) ∧
      (∀ t code, s.begun.piecesVa k off size true = (t, .error code) → TrapsCounting i s t ⟨code, addr, s.slot⟩)) ∧
    (space = 3 → TrapsWith i s ⟨0x0301, addr, s.slot⟩)

/-- R134, R247, R260, R284 and R285: an atomic of a Lantern acts on the eight bytes of SRAM at issue and delivers their old
value, and at the frame of a device address after its earlier stores; poisoned or lost data take 0x0306, control space and an
operation that the host does not do 0x0304, and a misaligned address 0x0302. That it acts at issue, after the queued
stores, is log entries 37 and 90. -/
def Obligations.AtomicsOnLanterns : Prop :=
  ∀ i g op d a b s k, atomForm i = some (g, op, d, a, b) →
    IssuesOnLantern s k g ([a, b] ++ (if op = .cas then [d] else []) ++ [d]) [] →
    let c := (s.lanterns.get k).core
    let addr := (s.operand c 0 a).val
    let y := (s.operand c 1 b).val
    let e := if op = .cas then (s.operand c 2 d).val else 0
    let space := addr.toNat / 2 ^ 62
    let off := addr.toNat % 2 ^ 62
    let m := (s.lanterns.get k).sram
    let old : Word := BitVec.ofNat 64 (m.read off 8)
    (addr.toNat % 8 = 0 → space = 1 → off + 8 ≤ 2 ^ 20 → m.uncorrectables off 8 = [] →
      Completes i s ((s.result d ⟨old, true, false⟩ 4 4).modLantern k fun l =>
        { l with sram := l.sram.write off (leBytes 8 (atomValue op old y e).toNat) false })) ∧
    (addr.toNat % 8 = 0 → space = 2 → off + 8 ≤ 2 ^ 24 → TrapsWith i s ⟨0x0304, addr, s.slot⟩) ∧
    (addr.toNat % 8 = 0 → space = 0 → off + 8 ≤ 2 ^ 48 →
      (∀ t ps, s.begun.piecesVa k off 8 true = (t, .ok ps) →
        let allowed := ∀ x ∈ ps, x.1.kind = 2 → s.mod_.hostAtomOk op = true
        (∀ u old, allowed → t.atomDev k ps op y e = (u, some old) → Completes i s (u.queueDev k (.load d old) ps)) ∧
        (∀ u, allowed → t.atomDev k ps op y e = (u, none) → TrapsCounting i s u ⟨0x0306, addr, s.slot⟩) ∧
        (¬allowed → TrapsCounting i s t ⟨0x0304, addr, s.slot⟩)) ∧
      ∀ t code, s.begun.piecesVa k off 8 true = (t, .error code) → TrapsCounting i s t ⟨code, addr, s.slot⟩) ∧
    (addr.toNat % 8 ≠ 0 → space = 1 → off + 8 ≤ 2 ^ 20 → TrapsWith i s ⟨0x0302, addr, s.slot⟩)

/-- R260, R301 and R302: LDA reads as a load of eight aligned bytes; STL, EVSIG and FENCE are performed after every store
that the Lantern has queued, and FENCE.T empties its translation cache. That the frames of an LDA are read at issue, with their
0x0306 there, is log entries 37 and 90. -/
def Obligations.OrderedAccesses : Prop :=
  ∀ g s k,
    let c := (s.lanterns.get k).core
    (∀ d a, IssuesOnLantern s k g [a, d] [a] →
      let addr := (s.operand c 0 a).val
      let off := addr.toNat % 2 ^ 62
      (addr.toNat % 8 ≠ 0 → addr.toNat / 2 ^ 62 = 1 → off + 8 ≤ 2 ^ 20 → TrapsWith (.lda g d a) s ⟨0x0302, addr, s.slot⟩) ∧
      (addr.toNat % 8 = 0 → addr.toNat / 2 ^ 62 = 1 → off + 8 ≤ 2 ^ 20 → (s.lanterns.get k).sram.uncorrectables off 8 = [] →
        Completes (.lda g d a) s
          (s.result d ⟨BitVec.ofNat 64 ((s.lanterns.get k).sram.read off 8), true, false⟩ 4 4)) ∧
      (addr.toNat % 8 = 0 → addr.toNat / 2 ^ 62 = 2 → off + 8 ≤ 2 ^ 24 →
        Completes (.lda g d a) s (s.result d ⟨s.begun.ctlWord off, true, false⟩ 4 4)) ∧
      (addr.toNat % 8 = 0 → addr.toNat / 2 ^ 62 = 0 → off + 8 ≤ 2 ^ 48 →
        ∀ t ps, s.begun.piecesVa k off 8 false = (t, .ok ps) →
          (∀ u bs, t.readDev k ps = (u, some bs) →
            Completes (.lda g d a) s (u.queueDev k (.load d (BitVec.ofNat 64 (leNat bs))) ps)) ∧
          (∀ u, t.readDev k ps = (u, none) → TrapsCounting (.lda g d a) s u ⟨0x0306, addr, s.slot⟩))) ∧
    (∀ d a, IssuesOnLantern s k g [d, a] [a] →
      let data := (s.operand c 0 d).val
      let addr := (s.operand c 1 a).val
      let off := addr.toNat % 2 ^ 62
      (addr.toNat % 8 = 0 → addr.toNat / 2 ^ 62 = 1 → off + 8 ≤ 2 ^ 20 → Completes (.stl g d a) s
        ((s.begun.drainDev k).modLantern k fun l => { l with sram := l.sram.write off (leBytes 8 data.toNat) false })) ∧
      (addr.toNat % 8 = 0 → addr.toNat / 2 ^ 62 = 2 → off + 8 ≤ 2 ^ 24 →
        Completes (.stl g d a) s ((s.begun.drainDev k).writeCtl (.lantern k) off data)) ∧
      (addr.toNat % 8 = 0 → addr.toNat / 2 ^ 62 = 0 → off + 8 ≤ 2 ^ 48 →
        ∀ t ps, s.begun.piecesVa k off 8 true = (t, .ok ps) →
          Completes (.stl g d a) s ((t.drainDev k).queueDev k (.store 8 data) ps))) ∧
    (∀ op e v, IssuesOnLantern s k g [e, v] [e, v] →
      let j := (s.operand c 0 e).val.toNat
      (1024 ≤ j → TrapsWith (.evsig g op e v) s ⟨0x0104, BitVec.ofNat 64 (c.pc + 4 * s.slot), s.slot⟩) ∧
      (j < 1024 → Completes (.evsig g op e v) s
        ((s.begun.drainDev k).signal (.lantern k) op j (s.operand c 1 v).val))) ∧
    (∀ cached, IssuesOnLantern s k g [] [] →
      let t := s.begun.drainDev k
      Completes (.fence g cached) s (if cached then t.modLantern k (fun l => { l with tlb := [] }) else t))

/-! ## Lantern instructions (chapter 11) -/

/-- R300 and R301: LAUNCH delivers the id of the launch that it submits, or 2^63 and the code that refuses it; EVWAIT
delivers the counter once it has reached the value, and is otherwise noted as waiting. That the result lands in l too is log
entry 76. -/
def Obligations.LaunchesAndWaits : Prop :=
  ∀ g s k,
    let c := (s.lanterns.get k).core
    (∀ d a, IssuesOnLantern s k g [a, d] [a] →
      let addr := (s.operand c 0 a).val
      (addr.toNat % 32 ≠ 0 → TrapsWith (.launch g d a) s ⟨0x0302, addr, s.slot⟩) ∧
      (∀ t f, addr.toNat % 32 = 0 → s.begun.readEntry32 k addr = (t, .error f) → TrapsCounting (.launch g d a) s t f) ∧
      (∀ t bs, addr.toNat % 32 = 0 → s.begun.readEntry32 k addr = (t, .ok bs) →
        ((∀ r, launchReq (16 + k.val) bs = some r → r.serial = true) →
          Completes (.launch g d a) s (t.landS d (BitVec.ofNat 64 (2 ^ 63 + 0x0801)) false false 1 1)) ∧
        (∀ r, launchReq (16 + k.val) bs = some r → r.serial = false →
          (∀ u id, t.acceptLaunch r = (u, .ok id) →
            Completes (.launch g d a) s (u.landS d (BitVec.ofNat 64 id) false false 1 1)) ∧
          (∀ u code, t.acceptLaunch r = (u, .error code) →
            Completes (.launch g d a) s (u.landS d (BitVec.ofNat 64 (2 ^ 63 + code)) false false 1 1))))) ∧
    (∀ d e v, IssuesOnLantern s k g [e, v, d] [e, v] →
      let j := (s.operand c 0 e).val.toNat
      let b := (s.operand c 1 v).val
      (1024 ≤ j → TrapsWith (.evwait g d e v) s ⟨0x0104, BitVec.ofNat 64 (c.pc + 4 * s.slot), s.slot⟩) ∧
      (∀ x, j < 1024 → (s.lanterns.get k).waited s.slot = some x →
        Completes (.evwait g d e v) s (s.result d ⟨x, false, false⟩ 1 1)) ∧
      (j < 1024 → (s.lanterns.get k).waited s.slot = none → b.toNat ≤ (s.event j).toNat →
        Completes (.evwait g d e v) s (s.result d ⟨s.event j, false, false⟩ 1 1)) ∧
      (j < 1024 → (s.lanterns.get k).waited s.slot = none → (s.event j).toNat < b.toNat →
        Completes (.evwait g d e v) s (s.begun.modLantern k fun l => { l with waits := l.waits ++ [⟨s.slot, j, b, none, 0⟩] })))

/-- R303 to R307: CLRUN, PREEMPT, RESUME, KILL and LEASE act at issue and deliver their status one cycle later; ERET in an
exception returns to LEPC after one delay bundle, up to which EXC stays (in the delay bundle of another transfer it takes the place
of that one: log entry 106); WREAD writes its 64 bytes in SRAM, or on failure their last 16 (log entry 79).
That a status lands in l too is log entry 76. -/
def Obligations.LanternCommands : Prop :=
  ∀ g s k,
    let c := (s.lanterns.get k).core
    (∀ d a b, IssuesOnLantern s k g [a, b, d] [a, b] →
      let x := (s.operand c 0 a).val
      let y := (s.operand c 1 b).val
      let answers (i : Instr) (r : State × Word) : Prop := Completes i s (r.1.landS d r.2 false false 1 1)
      answers (.clrun g d a b) (s.begun.clrun k x y) ∧ answers (.preempt g d a b) (s.begun.preempt x y) ∧
        answers (.resume g d a b) (s.begun.resume x y) ∧ answers (.lease g d a b) (s.begun.requestLease x.toNat y)) ∧
    (∀ d a, IssuesOnLantern s k g [a, d] [a] →
      let r := s.begun.kill (s.operand c 0 a).val
      Completes (.kill g d a) s (r.1.landS d r.2 false false 1 1)) ∧
    (IssuesOnLantern s k g [] [] →
      ((s.lanterns.get k).exc = true → Completes (.eret g) s (s.begun.modLantern k fun l =>
        { l with core := { l.core with ctl := some (.xfer ⟨.eret, l.lepc.toNat, 1, c.cdepth⟩) } })) ∧
      ((s.lanterns.get k).exc = false →
        TrapsWith (.eret g) s ⟨0x0104, BitVec.ofNat 64 (c.pc + 4 * s.slot), s.slot⟩)) ∧
    (∀ a b sel, IssuesOnLantern s k g [a, b, sel] [a, b, sel] →
      let addr := (s.operand c 1 b).val
      let off := addr.toNat % 2 ^ 62
      let r := s.begun.wread (s.operand c 0 a).val (s.operand c 2 sel).val.toNat
      let tail := leBytes 8 r.1 ++ List.replicate 8 0
      addr.toNat / 2 ^ 62 = 1 → off % 64 = 0 → off + 64 ≤ 2 ^ 20 →
      Completes (.wread g a b sel) s (s.begun.modLantern k fun l => { l with
        sram := if r.1 = 0 then l.sram.write off (digestBytes r.2 ++ tail) false else l.sram.write (off + 48) tail false }))

/-- R303 to R305: the status that CLRUN, PREEMPT, RESUME and KILL deliver; one that fails, and a LEASE for an unknown
launch, changes nothing else. Status 3 of a list VA on a busy queue too is log entry 77, and the order of the statuses of PREEMPT and
RESUME log entry 78. -/
def Obligations.CommandStatus : Prop :=
  ∀ (s : State) (k : Fin 4) (x y : Word),
    let listFits := x.toNat % 32 = 0 ∧ x.toNat < 2 ^ 48 ∧ y.toNat % 32 = 0 ∧ 32 ≤ y.toNat ∧ y.toNat ≤ 2 ^ 20
    let q := s.queues.get (internalQueue k)
    ((s.clrun k x y).2 = 3 ↔ ¬listFits) ∧
    ((s.clrun k x y).2 = 2 ↔ listFits ∧ (q.state = .running ∨ q.state = .blocked)) ∧
    ((s.clrun k x y).2 ≠ 0 → (s.clrun k x y).1 = s) ∧
    ((s.preempt x y).2 = 3 ↔ 2 ≤ y.toNat) ∧
    ((s.preempt x y).2 = 1 ↔ y.toNat < 2 ∧ s.launch? x.toNat = none) ∧
    ((s.preempt x y).2 ≠ 0 → (s.preempt x y).1 = s) ∧
    ((s.resume x y).2 = 3 ↔ 512 ≤ y.toNat) ∧
    ((s.resume x y).2 = 0 ↔ y.toNat < 512 ∧ ∃ l, s.launch? x.toNat = some l ∧ l.state = .parked) ∧
    ((s.resume x y).2 ≠ 0 → (s.resume x y).1 = s) ∧
    ((s.kill x).2 = 1 ↔ s.launch? x.toNat = none) ∧
    ((s.kill x).2 ≠ 0 → (s.kill x).1 = s) ∧
    (s.launch? x.toNat = none → s.requestLease x.toNat y = (s, 0))

/-! ## Slots in general (chapters 2, 4 and 17) -/

/-- R136, R322 and their like of the other classes: the NOP of a class has opcode 0 and no operands, and no effect, whatever
its guard reads. R35, R98 and R129: a slot whose guard reads 0, or that stands in a level of count 0, does nothing; a poisoned
guard takes 0x0306 with the index of its predicate, before the banks of its registers are looked at (log entry 23). SEL has no
guard. -/
def Obligations.NopsAndGuards : Prop :=
  (∀ g, encodeFields (.nop g) = some (0, 0x00, g.val, 0) ∧ encodeFields (.lnop g) = some (5, 0x00, g.val, 0)) ∧
  (∀ i s c, isNop i = true → s.runs i → s.coreOf s.focus = some c → exec i s = .next s.begun) ∧
  (∀ i s c, s.runs i → s.coreOf s.focus = some c →
     (c.suppressed = true → exec i s = .next s.begun) ∧
     (c.suppressed = false → s.imms = none → isSel i = false →
       ((c.readQ (guardOf i)).val = false → (c.readQ (guardOf i)).poison = false → Completes i s s.begun) ∧
       ((c.readQ (guardOf i)).poison = true → isNop i = false →
         exec i s = .next (s.begun.takeFault ⟨0x0306, BitVec.ofNat 64 (guardOf i).val, s.slot⟩))))

/-- R34 and R54: a slot that its core does not run takes 0x0106 with the address of the slot. -/
def Obligations.WrongCoreFaults : Prop :=
  ∀ i s c, (encodeFields i).isSome = true → ¬s.runs i → s.coreOf s.focus = some c → c.suppressed = false →
    exec i s = .next (s.begun.takeFault ⟨0x0106, BitVec.ofNat 64 (c.pc + 4 * s.slot), s.slot⟩)

/-- R98 and R102: a poisoned register used as control takes 0x0306 with 0x100 plus its field value, and a register of
a bank that is not on takes 0x0501 with its number, be it a source or a destination. The bank comes before the poison, both before
the checks of the instruction itself, and of several registers the first in the order of the sources and then the destinations is
named (log entry 23). -/
def Obligations.ControlAndBankFaults : Prop :=
  (∀ i g named control s c, operandForm i = some (g, named, control) → s.runs i → s.coreOf s.focus = some c →
    c.suppressed = false → s.passes c g →
    (∀ t pre d post, s.focusTile? = some t → named = pre ++ d :: post → (∀ e ∈ pre, t.bankOff e = false) → t.bankOff d = true →
      TrapsWith i s ⟨0x0501, BitVec.ofNat 64 d.code, s.slot⟩) ∧
    (∀ pre a post, s.banksOn named → s.imms = none → control = pre ++ a :: post → (∀ e ∈ pre, (c.readS e).poison = false) →
      (c.readS a).poison = true → TrapsWith i s ⟨0x0306, BitVec.ofNat 64 (0x100 + a.code), s.slot⟩)) ∧
  (∀ q d a b s c t pre e post, s.coreOf s.focus = some c → c.suppressed = false → s.focusTile? = some t →
    [a, b, d] = pre ++ e :: post → (∀ x ∈ pre, t.bankOff x = false) → t.bankOff e = true →
    TrapsWith (.sel q d a b) s ⟨0x0501, BitVec.ofNat 64 e.code, s.slot⟩)

/-- R131: the checks on the address of an S access of a tile, in their order. -/
def Obligations.AddressChecksInOrder : Prop :=
  ∀ s t i g a named size x,
    (∃ d n signed, loadForm i = some (g, d, a, n, size, signed) ∧ named = [a, d] ∧
      x = offsetAddress (s.operand t.core 0 a).val n size) ∨
    (∃ d n, storeForm i = some (g, d, a, n, size) ∧ named = [a, d] ∧
      x = offsetAddress (s.operand t.core 0 a).val n size) ∨
    (∃ op d b, atomForm i = some (g, op, d, a, b) ∧ named = [a, b] ++ (if op = .cas then [d] else []) ++ [d] ∧ size = 8 ∧
      x = (s.operand t.core 0 a).val) →
    IssuesOn s t g named [] →
    let p := (s.operand t.core 0 a).poison
    (p = true → TrapsWith i s ⟨0x0306, x, s.slot⟩) ∧
    (p = false → 2 ^ 21 < x.toNat + size → TrapsWith i s ⟨0x0301, x, s.slot⟩) ∧
    (p = false → x.toNat + size ≤ 2 ^ 21 → x.toNat % size ≠ 0 → TrapsWith i s ⟨0x0302, x, s.slot⟩)

/-- From Transfers of control and Hardware loops: a CALL adds 1 to CDEPTH and at 15 takes 0x0104, a RET subtracts 1 and leaves 0 at 0, and every other transfer leaves
CDEPTH alone (R125). R123 and R129: a transfer or LOOP in a delay bundle takes 0x0102; a ninth level and a body that ends past the
innermost level of its depth take 0x0104. That 0x0102 comes before the 0x0104 of a CALL or LOOP is log entry 23. -/
def Obligations.TransferFaults : Prop :=
  ∀ s c,
    let trap (i : Instr) (code : Nat) : Prop := TrapsWith i s ⟨code, BitVec.ofNat 64 (c.pc + 4 * s.slot), s.slot⟩
    (∀ t a n, c.xfer = none → c.ctl = some (.xfer t) → (c.advance a n).cdepth = (match t.kind with
      | .call => c.cdepth + 1
      | .ret => c.cdepth - 1
      | .br | .jal | .jr | .eret => c.cdepth)) ∧
    (∀ i g, transferForm i = some g → Issues s c g [] [] → c.xfer.isSome = true → trap i 0x0102) ∧
    (∀ g a n, Issues s c g [a] [a] → c.xfer.isSome = true → trap (.loop g a n) 0x0102) ∧
    (∀ g b, Issues s c g [] [] → c.xfer = none → c.cdepth = 15 → trap (.call g b) 0x0104) ∧
    (∀ g a n, Issues s c g [a] [a] → c.xfer = none → 8 ≤ c.loops.length → trap (.loop g a n) 0x0104) ∧
    (∀ g a n l, Issues s c g [a] [a] → c.xfer = none → c.loops.length < 8 → c.loops.head? = some l →
      l.cdepth = c.cdepth → l.last < s.bundleAfter c n.toNat → trap (.loop g a n) 0x0104)

/-- R28, R107 and R360: a fault at the issue of a tile's bundle goes into CAUSE, unless that holds an earlier one, with the
SCY of the issue; the tile stops, and the halt of its region is due 96 wall cycles later, or at an earlier request. R287: a
fault of a Lantern saves the address of its bundle in LEPC and the record in LCAUSE, and the next bundle is at LVEC, with no
delay bundles; outside exception mode EXC is set, and in it the core halts and raises vector 63. Nothing else changes. -/
def Obligations.FaultsAreTaken : Prop :=
  (∀ (s : State) j t f, s.focus = .tile j → s.tile? j = some t →
     let new := FaultRec.of f (s.cluster t).scy
     s.takeFault f = { s with
       trap := some f
       tiles := s.tiles.set j { t with cause := t.cause.keep new, halt := t.halt.keep new, run := .stopped }
       regions := s.regions.map fun r =>
         if r.id = t.region then
           { r with haltReq := some (match r.haltReq with
               | some h => ⟨min h.at_ (s.wcy + 96)⟩
               | none => ⟨s.wcy + 96⟩) }
         else r }) ∧
  (∀ (s : State) n f, s.focus = .lantern n →
     let l := s.lanterns.get n
     let taken : Lantern := { l with
       lepc := BitVec.ofNat 32 l.core.pc, lcause := .of f 0, waits := []
       core := { l.core with pc := l.lvec.toNat, xfer := none, target := false, ctl := none } }
     (l.exc = false → s.takeFault f =
       { s with trap := some f, lanterns := s.lanterns.set n { taken with exc := true } }) ∧
     (l.exc = true → s.takeFault f =
       { { s with lanterns := s.lanterns.set n { taken with halted := true, run := false } }.sendVector 63 with
         trap := some f }))

/-- R99 and the frame of every slot: at its issue a slot of a tile changes no register of the core or of the tile, no byte
of scratchpad, code store, device memory or host memory, no other tile and no Lantern; its results land later. -/
def Obligations.SlotsChangeNoRegisterAtIssue : Prop :=
  ∀ i s t j x, (encodeFields i).isSome = true → s.focus = .tile j → s.tile? j = some x → exec i s = .next t →
    ∃ y, t.tile? j = some y ∧ y.core.registers = x.core.registers ∧ y.registers = x.registers ∧ y.sp = x.sp ∧
      y.code = x.code ∧ (∀ k, k ≠ j → t.tile? k = s.tile? k) ∧ t.dram = s.dram ∧ t.host = s.host ∧ t.lanterns = s.lanterns

/-! ## What lands (chapters 3 to 5) -/

/-- R94, and R92, R93 and R99: what lands in a core. s0, q0 and q1 read as they always do, l and the o file take every write, a pair
takes the condition and its complement, and every other register keeps its value; the compares and PLOG land a pair from 1 to 7, and
nothing else lands in the predicates. -/
def Obligations.RegistersLand : Prop :=
  (∀ g k s c,
    (∀ cc a b, Issues s c g [a, b] [] → ∃ y : QReg,
      (y.val = true ↔ comparison cc (s.operand c 0 a).val (s.operand c 1 b).val) ∧
        Completes (.cmp g k cc a b) s (s.lands (s.env.ctl + 1) [(1, .pair k y)])) ∧
    (∀ cc a n, Issues s c g [a] [] → ∃ y : QReg, (y.val = true ↔ comparison cc (s.operand c 0 a).val (BitVec.ofInt 64 n.toInt)) ∧
      Completes (.cmpi g k cc a n) s (s.lands (s.env.ctl + 1) [(1, .pair k y)])) ∧
    (∀ op m n, Issues s c g [] [] → ∃ y : QReg,
      (y.val = true ↔ predicateLogic op ((c.readQ m).val = true) ((c.readQ n).val = true)) ∧
        Completes (.plog g k op m n) s (s.lands (s.env.ctl + 1) [(1, .pair k y)])) ∧
    (∀ i ∈ [Instr.cmp g k .eq .l .l, .cmpi g k .eq .l 0, .plog g k .and 0 0], i.wf = true ↔ 1 ≤ k.val)) ∧
  ∀ (c : Core),
    (∀ eff, (∃ k v, eff = .pair k v) ∨ (c.apply eff).q = c.q) ∧
    (∀ d v e, (c.apply (.reg d v)).readS e = (if e = d ∧ d ≠ .s 0 then v else c.readS e)) ∧
    (∀ d v, (c.apply (.reg d v)).q = c.q ∧ (c.apply (.reg d v)).b = c.b) ∧
    (∀ k v n, (c.apply (.pair k v)).readQ n =
      (if n.val / 2 = k.val ∧ 2 ≤ n.val then ⟨v.val ^^ decide (n.val % 2 = 1), v.taint, v.poison⟩ else c.readQ n)) ∧
    (∀ k v e, (c.apply (.pair k v)).readS e = c.readS e ∧ (c.apply (.pair k v)).b = c.b) ∧
    (∀ n v m, (c.apply (.breg n v)).b.get m = if m = n then v else c.b.get m) ∧
    (∀ n v e m, (c.apply (.breg n v)).readS e = c.readS e ∧ (c.apply (.breg n v)).readQ m = c.readQ m)

/-- R138, R143 and R153: what lands in the generators and in the fields of the handles; every other field keeps its
value. R74, R79, R102 to R104, R137, R147, R154 to R156, R309, R316, R317 and R359: what lands in the scales, the masks, the special
registers, the flags, the routes, the tags, the bits of STATUS and the register banks, and that it changes nothing else. That a
bank taken from off to retention keeps its contents is log entry 101. -/
def Obligations.AddressRegistersLand : Prop :=
  ∀ (t : Tile),
    (∀ n p c k, (t.apply (.agSet n p c)).gens.get k = if k = n then
      { t.gens.get n with base := BitVec.ofNat 22 p.toNat, bw := BitVec.ofNat 2 (p.toNat / 2 ^ 22),
                          icnt := BitVec.ofNat 12 c.toNat, ocnt := BitVec.ofNat 12 (c.toNat / 2 ^ 12), ii := 0, oi := 0 }
      else t.gens.get k) ∧
    (∀ n w k, (t.apply (.agStr n w)).gens.get k = if k = n then
      { t.gens.get n with istr := BitVec.ofNat 24 w.toNat, ostr := BitVec.ofNat 24 (w.toNat / 2 ^ 24) }
      else t.gens.get k) ∧
    (∀ h f v k, ((t.apply (.field h f v)).handles.get k).poison = (t.handles.get k).poison ∧
      ∀ e, hGet ((t.apply (.field h f v)).handles.get k).bits e =
        if k = h ∧ e = f then v.toNat % 2 ^ (fieldPlace f).2 else hGet (t.handles.get k).bits e) ∧
    (∀ h v p k, (t.apply (.handle h v p)).handles.get k = if k = h then ⟨v, p⟩ else t.handles.get k) ∧
    (∀ (n : Fin 16) base bw (ii oi : BitVec 12) k,
      let x := t.gens.get k
      (t.apply (.agBase n base)).gens.get k = (if k = n then { x with base := base } else x) ∧
      (t.apply (.agBw n bw)).gens.get k = (if k = n then { x with bw := bw } else x) ∧
      (t.apply (.agPos n ii oi)).gens.get k = if k = n then { x with ii := ii, oi := oi } else x) ∧
    (∀ eff, landsInGenerator eff = true → t.apply eff = { t with gens := (t.apply eff).gens }) ∧
    (∀ h f v, t.apply (.field h f v) = { t with handles := (t.apply (.field h f v)).handles }) ∧
    (∀ h v p, t.apply (.handle h v p) = { t with handles := t.handles.set h ⟨v, p⟩ }) ∧
    (∀ n v p, t.apply (.scale n v p) = { t with scales := t.scales.set n ⟨v, p⟩ }) ∧
    (∀ n v, t.apply (.ym n v) = { t with ym := t.ym.set n v } ∧ t.apply (.xm n v) = { t with xm := t.xm.set n v }) ∧
    (∀ n v, t.apply (.vmask n v) = if n = 0 then t else { t with vm := t.vm.set n v }) ∧
    (∀ (idx : BitVec 12) v,
      (idx = 0x020 → t.apply (.special idx v) = { t with bankclr := t.bankclr && !v.getLsbD 0 }) ∧
      (idx = 0x021 → t.apply (.special idx v) = { t with fflags := BitVec.ofNat 6 v.toNat }) ∧
      (idx = 0x022 → t.apply (.special idx v) = { t with frm := BitVec.ofNat 2 v.toNat }) ∧
      (idx ∉ [0x020, 0x021, 0x022] → t.apply (.special idx v) = t)) ∧
    (∀ f : FFlags, ∃ g : FFlags, t.apply (.flags f) = { t with fflags := g } ∧
      ∀ k < 6, g.getLsbD k = (t.fflags.getLsbD k || f.getLsbD k)) ∧
    (∀ e v k, t.apply (.route e v) = { t with routes := t.routes.set e v } ∧
      t.apply (.act e k) = { t with act := t.act.set e k }) ∧
    (∀ st et, t.apply (.tags st et) = { t with stag := st.getD t.stag, etag := et.getD t.etag }) ∧
    (∀ v, t.apply (.recBit v) = { t with rec_ := { t.rec_ with recBit := v } } ∧
      t.apply (.replayBit v) = { t with rep := { t.rep with bit := v } }) ∧
    (∀ b st, t.bankOf b ≠ ⟨.off, (t.bankOf b).wake⟩ ∨ st ≠ .on → t.apply (.bank b st) = t.setBank b ⟨st, none⟩) ∧
    (∀ b wake, t.bankOf b = ⟨.off, wake⟩ → ∃ u, t.apply (.bank b .on) =
      { t.setBank b ⟨.on, none⟩ with bankclr := true, core := { t.core with s := u } } ∧
        ∀ k : Fin 48, u.get k = if (b = .bank1 ∧ 16 ≤ k.val ∧ k.val < 32) ∨ (b = .bank2 ∧ 32 ≤ k.val) then ⟨0, false, false⟩ else t.core.s.get k)

/-! ## The next bundle (chapter 4) -/

/-- R122, R124, R125, R129, R130 and R281: the bundle after one at the address a, of the length n; the delay bundles of a transfer
are those that would issue without it. -/
def Obligations.NextBundle : Prop :=
  ∀ (c : Core) (a n : Nat),
    let u := c.advance a n
    -- in sequence, or back to the start of the innermost level of the call depth
    (c.xfer = none → c.ctl = none → (∀ l, c.loops.head? = some l → l.cdepth ≠ c.cdepth ∨ a ≠ l.last) →
      u = { c with pc := a + n, target := false }) ∧
    (∀ l ls, c.xfer = none → c.ctl = none → c.loops = l :: ls → l.cdepth = c.cdepth → a = l.last → 1 < l.cnt →
      u = { c with pc := l.start, loops := { l with cnt := l.cnt - 1 } :: ls, target := false }) ∧
    (∀ l ls, c.xfer = none → c.ctl = none → c.loops = l :: ls → l.cdepth = c.cdepth → a = l.last → l.cnt ≤ 1 →
      u = { c with loops := ls }.advance a n) ∧
    -- a transfer or a level that the bundle asked for
    (∀ t, c.xfer = none → c.ctl = some (.xfer t) → u = { { c with ctl := none }.advance a n with
      xfer := some t, cdepth := (match t.kind with
        | .call => c.cdepth + 1
        | .ret => c.cdepth - 1
        | _ => c.cdepth) }) ∧
    (∀ l, c.xfer = none → c.ctl = some (.loop l) →
      let w := { c with ctl := none }.advance a n
      u = { w with loops := l :: w.loops }) ∧
    -- the delay bundles of a transfer, and its target after the last
    (∀ t, c.ctl = none → c.xfer = some t → 1 < t.left →
      u = { { c with xfer := none, cdepth := t.cdepth }.advance a n with
        xfer := some { t with left := t.left - 1 }, cdepth := c.cdepth }) ∧
    (∀ p, c.ctl = some (.goto p) → u = { { c with ctl := none }.advance a n with pc := p, xfer := none, target := false }) ∧
    (∀ t, c.ctl = none → c.xfer = some t → t.left ≤ 1 → u.pc = t.target ∧ u.xfer = none ∧ u.target = true ∧ u.cdepth = c.cdepth ∧
      (t.kind = .call ∨ t.kind = .eret → u.loops = c.loops) ∧
      (t.kind = .ret → u.loops = c.loops.filter fun l => l.cdepth ≠ t.cdepth) ∧
      (t.kind = .br ∨ t.kind = .jal ∨ t.kind = .jr → u.loops = c.loops.dropWhile fun l =>
        decide (l.cdepth = c.cdepth ∧ ¬(l.start ≤ t.target ∧ t.target ≤ l.last))))

/-! ## The host and the module (chapters 15 and 16) -/

/-- R262, R292, R385 and R386: the host's writes of event counters, of slice memory and of registers, and its reads of slice
memory as performed; the updates of one counter in one reference cycle apply in the order of their parties. R397: with DEVCAP 0
the registers other than those that say so do not work (log entry 93). -/
def Obligations.HostAccesses : Prop :=
  ∀ (s : State),
    (s.mod_.feat ≠ 0 → ∀ j v, exec (.hostEventWrite j v) s = .next (s.signal .host .set j.val v)) ∧
    -- an update of a counter: the first of a reference cycle, and a second one of that cycle
    (∀ p op (j : Fin 1024) v, (∀ c ∈ s.evCycle, c.ev ≠ j.val) →
      let x := s.event j.val
      (∃ es, s.signal p op j.val v = { s with events := s.events.set j (updated op x v), evCycle := es }) ∧
      ∀ p2 op2 w, ∃ es, (s.signal p op j.val v).signal p2 op2 j.val w = { s with
        events := s.events.set j (if p2.rank < p.rank then updated op (updated op2 x w) v else updated op2 (updated op x v) w)
        evCycle := es }) ∧
    (∀ off data, s.dram.wf = true → data ≠ [] → s.bar2 off + data.length ≤ 80 * 2 ^ 32 →
      ∃ m dce, exec (.hostBar2Write off data) s = .next { s with dram := m, dce := dce } ∧
        ∀ a, m.byte a = if s.bar2 off ≤ a ∧ a < s.bar2 off + data.length then data.getD (a - s.bar2 off) 0
          else s.dram.byte a) ∧
    (∀ off data, 80 * 2 ^ 32 ≤ s.bar2 off → exec (.hostBar2Write off data) s = .next s) ∧
    (∀ off n, s.bar2 off + n ≤ 80 * 2 ^ 32 → ∃ due dce, exec (.hostBar2Read off n) s = .next { s with
      due := due, dce := dce
      mod_ := { s.mod_ with answers := (s.dram.bytes (s.bar2 off) n,
        (List.range n).any fun j => s.dram.bytePoison (s.bar2 off + j), false) :: s.mod_.answers } }) ∧
    (∀ off n, 80 * 2 ^ 32 < s.bar2 off + n → exec (.hostBar2Read off n) s =
      .next { s with mod_ := { s.mod_ with answers := ([], false, true) :: s.mod_.answers } }) ∧
    (∀ off v, off % 8 ≠ 0 → exec (.registerWrite off v) s = .next s) ∧
    (s.mod_.feat ≠ 0 →
      (∀ (j : Fin 1024) v, exec (.registerWrite (0x20000 + 8 * j.val) v) s = exec (.hostEventWrite j v) s) ∧
      ∀ (q : Fin 20) v, exec (.registerWrite (0x10000 + 64 * q.val + 0x18) v) s = exec (.qtailWrite q v) s) ∧
    (s.mod_.feat = 0 →
      (∀ off v, off < 0xE0000 ∨ (0xE0018 ≤ off ∧ off < 0xE0040) ∨ 0xF0000 ≤ off → exec (.registerWrite off v) s = .next s) ∧
      ∀ j v, exec (.hostEventWrite j v) s = .next s) ∧
    (s.mod_.feat ≠ 0 → ∀ (k : Fin 64) v, exec (.registerWrite (0x1000000 + 16 * k.val) v) s =
      .next { s with mod_ := { s.mod_ with msix := s.mod_.msix.set k { s.mod_.msix.get k with addr := v } } })

/-- R286: a Lantern that starts takes its program counter from LPC; one that runs already goes on, and one that stops keeps its
state, and no wait holds it; neither does where the boot has failed (R397, log entry 93). R100, R260, R285 and R301: the data of a load return, a store reaches its frames unless it follows one
that it overlaps, and a wait takes the value of its counter; that no fault comes later than the issue is log entry 90. -/
def Obligations.LanternEvents : Prop :=
  ∀ (s : State) (n : Fin 4),
    let l := s.lanterns.get n
    (s.mod_.feat ≠ 0 → l.run = false → exec (.lanternStart n) s = .next { s with
      lanterns := s.lanterns.set n
        { l with run := true, waits := [],
                 core := { l.core with pc := l.lpc.toNat, xfer := none, target := false, ctl := none } } }) ∧
    (s.mod_.feat ≠ 0 → l.run = true → exec (.lanternStart n) s = .next { s with lanterns := s.lanterns.set n l }) ∧
    (s.mod_.feat ≠ 0 → exec (.lanternStop n) s =
      .next { s with lanterns := s.lanterns.set n { l with run := false, waits := [] } }) ∧
    (s.mod_.feat = 0 → exec (.lanternStart n) s = .next s ∧ exec (.lanternStop n) s = .next s) ∧
    (∃ ws, exec (.evwaitWake n) s = .next { s with lanterns := s.lanterns.set n { l with waits := ws } } ∧
      ∀ (k : Nat) (w : LWait), l.waits[k]? = some w → ws[k]? = some
        (if w.got = none ∧ w.value.toNat ≤ (s.event w.ev).toNat then { w with got := some (s.event w.ev), cyc := l.cyc } else w)) ∧
    (∀ k x, l.dev.find? (fun y => y.ord == k) = some x →
      (∀ d v, x.kind = .load d v → exec (.lanternLoadReturn n k) s =
        .next (s.modLantern n fun y => (y.landDev x d v).dropDev k)) ∧
      (∀ size data, x.kind = .store size data →
        ((∀ y ∈ l.dev.takeWhile fun y => y.ord != k, y.kind.isStore = true → y.overlaps x = false) →
          exec (.lanternStorePerformed n k) s =
            .next ((s.writePieces x.pieces (leBytes size data.toNat)).modLantern n fun y => y.dropDev k)) ∧
        (∀ y ∈ l.dev.takeWhile fun y => y.ord != k, y.kind.isStore = true → y.overlaps x = true →
          exec (.lanternStorePerformed n k) s = .next s))) ∧
    (∀ k, l.dev.find? (fun y => y.ord == k) = none →
      exec (.lanternLoadReturn n k) s = .next s ∧ exec (.lanternStorePerformed n k) s = .next s)

/-- R387, R393 to R396, R398 and R399: the commit of features, the power inputs and what they end, the attestation report, and
the Syncs of the time base. That a loss of LOCK by an offset raises EVT [19] is log entry 83, and which slot is idle where none was
booted is log entry 84; the rest of what is fixed here beside the rules is in log entries 6, 34 and 35. -/
def Obligations.ModuleEvents : Prop :=
  ∀ (s : State),
    let m := s.mod_
    let withMod (x : Module) : State := { s with mod_ := x }
    (m.acc.getLsbD 0 = true → m.acc &&& ~~~m.feat = 0 →
      exec .featureCommit s = .next (withMod { m with ready := true, err := false })) ∧
    (m.acc.getLsbD 0 = false ∨ m.acc &&& ~~~m.feat ≠ 0 → exec .featureCommit s = .next (withMod { m with err := true })) ∧
    (∀ i x, powerInput i m = some x →
      (m.leases = [] → exec i s = .next (s.withPower x)) ∧
      ∃ t, exec i s = .next t ∧ t.brokenLease = none ∧ t.mod_.caplvl = x.caplvl ∧ t.mod_.inlvl = x.inlvl ∧
        t.mod_.cool = x.cool) ∧
    (m.feat = 0 → ∀ level, exec (.pwrcapWrite level) s = .next s) ∧
    (m.leases = [] → exec .junctionOvertemp s = .next ((s.withPower { m with cool := 0 }).raiseEvt 0)) ∧
    (m.attest.busy = none → exec .attestRequest s = .next (withMod { m with attest :=
      { m.attest with busy := some (s.wcy + s.timing.attest), done := false, latched := m.attest.nonce } })) ∧
    (m.attest.busy ≠ none → exec .attestRequest s = .next s) ∧
    (∀ u, m.attest.busy = some u → s.wcy < u → exec .attestReportDone s = .next s) ∧
    (∀ u, m.attest.busy = some u → u ≤ s.wcy → ∃ bs, exec .attestReportDone s = .next (withMod { m with attest :=
      { m.attest with report := bs, busy := none, done := true, count := m.attest.count + 1 } }) ∧
      (bs.drop 8).take 48 = (m.attest.latched ++ List.replicate 48 0).take 48) ∧
    (∀ ps, m.lock = false → m.stepped = false → m.launched = false → -20000 ≤ ps → ps ≤ 20000 →
      let wcy := ((s.wcy : Int) - ps / 400).toNat
      exec (.ptpSync ps) s = .next { s with wcy := wcy, mod_ := { m with
        offs := ps, goodSyncs := min (m.goodSyncs + 1) 8, lock := decide (8 ≤ m.goodSyncs + 1), lastSync := wcy,
        stepped := true, slew := 0, lastSlew := wcy, freeRun := false } }) ∧
    (∀ ps, m.lock = false → m.stepped = true → -20000 ≤ ps → ps ≤ 20000 → exec (.ptpSync ps) s = .next (withMod { m with
      offs := ps, goodSyncs := min (m.goodSyncs + 1) 8, lock := decide (8 ≤ m.goodSyncs + 1), lastSync := s.wcy,
      slew := -(ps / 400), freeRun := false })) ∧
    (∀ ps, m.lock = true → m.stepped = true → ps < -20000 ∨ 20000 < ps → exec (.ptpSync ps) s = .next ((withMod { m with
      offs := ps, goodSyncs := 0, lock := false, lastSync := s.wcy, slew := -(ps / 400), freeRun := false }).raiseEvt 3)) ∧
    (s.wcy < m.lastSync + 5000000000 → exec .ptpSyncTimeout s = .next s) ∧
    (m.lastSync + 5000000000 ≤ s.wcy → exec .ptpSyncTimeout s =
      .next ((withMod { m with lock := false, goodSyncs := 0, slew := 0, freeRun := true }).raiseEvt 3)) ∧
    (∀ image version index (k : Fin 2), k = (if m.booted = some 1 then 0 else 1) →
      exec (.firmwareImageVerify image version index) s =
        .next (withMod { m with fw := m.fw.set k ⟨true, version, index, Config.imageVerifies image, some image⟩ }))

/-- R39, R43, R167, R190, R334, R344, R388, R396 and R397: boot and resets, what they clear and what they keep, soft errors, slips of a
cluster's clock, and a bundle that fails its checks. What boot keeps and what a shutdown clears is log entry 36, the
firmware of the Lanterns log entry 94, and that a later corruption of a partial takes the place of an earlier one log entry 28. -/
def Obligations.ResetsAndErrors : Prop :=
  ∀ (s : State),
    (s.mod_.dead = [] → s.mod_.bootLog.retlog = [] → exec .powerOnBoot s = .next { State.reset with
      wcy := s.wcy, dram := s.dram, host := s.host, fids := s.fids, mod_ := s.mod_.rebooted s.wcy, inputs := s.inputs,
      lanterns := Vector.replicate 4 s.mod_.bootLantern, timing := s.timing, focus := s.focus, agenda := []
      live := Vector.replicate 80 .full, bands := bandTable }) ∧
    (∃ t, exec .functionLevelReset s = .next t ∧ (∀ q, (t.queues.get q).state = .disabled ∧ (t.queues.get q).en = false) ∧
      (∀ n, (t.lanterns.get n).run = false) ∧ t.mod_.acc = 0 ∧ t.mod_.ready = false ∧ t.mod_.err = false ∧
      ∀ l ∈ t.launches, l.state = .ended) ∧
    exec .thermalShutdown s = .next { s with
      tiles := [], regions := [], launches := [], copies := [], syncs := [], agenda := []
      lanterns := Vector.replicate 4 .reset, queues := Vector.replicate 20 .reset
      mod_ := { s.mod_ with powered := false, leases := [], decisions := 0 } } ∧
    (∀ j t a k, s.tile? j = some t →
      exec (.softError (.scratch j a) k) s =
        .next { s with tiles := s.tiles.set j { t with sp := t.sp.strike (a % 2 ^ 21 / 8) k } } ∧
      exec (.softError (.code j a) k) s =
        .next { s with tiles := s.tiles.set j { t with code := t.code.strike (a % 2 ^ 18 / 8) k } } ∧
      ∀ e, exec (.softError (.array j e) k) s =
        .next { s with tiles := s.tiles.set j { t with residues := t.residues.filter (fun x =>
          decide ¬(x.z = e.z ∧ x.step = e.step ∧ x.row = e.row ∧ x.col = e.col ∧ x.slice = e.slice)) ++ [e] } }) ∧
    (∀ a k, exec (.softError (.dram a) k) s = .next { s with dram := s.dram.strike (a % (80 * 2 ^ 32) / 8) k }) ∧
    (∀ (m : Mem) w, (m.strike w .correctable).cells = m.cells ∧
      ∀ data v, (m.strike w (.uncorrectable data)).wordPoisoned v = if v = w then true else m.wordPoisoned v) ∧
    (∀ r k n, exec (.clusterSlip r k n) s = .next (s.modRegion r fun x =>
      { x with clusters := x.clusters.modify k fun c => { c with slip := c.slip + n } })) ∧
    (∀ c code addr slot, s.coreOf s.focus = some c →
      fetchBundle (s.codeOf s.focus) (agentKind s.focus) c.target c.pc = .error (code, addr, slot) →
      exec .invalidBundle s = .next (s.takeFault ⟨code, BitVec.ofNat 64 addr, slot⟩))

/-! ## Queues (chapter 11) -/

/-- R289, R291, R292 and R294: the writes of QTAIL, EN and RESTART, the end of what a queue is blocked on, and of a COPY: its bytes
are at their frames, and its event rises. That EN reads 1 after a refused enable, and what QTAIL does in any state, is log entry 91;
that a COPY whose ranges no longer translate ends with its event alone is log entry 82. -/
def Obligations.QueueRegisters : Prop :=
  ∀ (s : State) (q : Fin 20),
    let x := s.queues.get q
    let put (y : Queue) : State := { s with queues := s.queues.set q y }
    (∀ v, 16 ≤ q.val → exec (.qtailWrite q v) s = .next s ∧ exec (.queueEnable q) s = .next s) ∧
    (s.mod_.feat = 0 → (∀ v, exec (.qtailWrite q v) s = .next s) ∧ exec (.queueEnable q) s = .next s ∧
      exec (.queueDisable q) s = .next s ∧ exec (.queueRestart q) s = .next s) ∧
    (s.mod_.feat ≠ 0 →
      (∀ v, q.val < 16 → v.toNat % 2 ^ 32 < x.size / 32 →
        exec (.qtailWrite q v) s = .next (put { x with tail := v.toNat % 2 ^ 32 })) ∧
      (∀ v, q.val < 16 → x.size / 32 ≤ v.toNat % 2 ^ 32 → x.irqen = false → exec (.qtailWrite q v) s = .next (put { x with
        tail := v.toNat % 2 ^ 32, state := .error, code := 0x0801, errix := x.head, block := none })) ∧
      (q.val < 16 → s.mod_.ready = false → exec (.queueEnable q) s =
        .next (put { x with en := true, state := .disabled, code := 0x0801, block := none })) ∧
      (q.val < 16 → s.mod_.ready = true →
        (x.state = .disabled → x.size % 32 = 0 ∧ 64 ≤ x.size ∧ x.size ≤ 2 ^ 20 →
          exec (.queueEnable q) s = .next (put { x with en := true, state := .running, code := 0 })) ∧
        (x.state = .disabled → ¬(x.size % 32 = 0 ∧ 64 ≤ x.size ∧ x.size ≤ 2 ^ 20) →
          exec (.queueEnable q) s = .next (put { x with en := true, code := 0x0801 })) ∧
        (x.state ≠ .disabled → exec (.queueEnable q) s = .next (put { x with en := true }))) ∧
      (x.block = none → exec (.queueDisable q) s = .next (put { x with en := false, state := .disabled })) ∧
      (∀ b, x.block = some b →
        ((∃ k, b = .serialLaunch k ∨ b = .serialCopy k) →
          exec (.queueDisable q) s = .next (put { x.advance with en := false, state := .disabled, block := none })) ∧
        ((∀ k, b ≠ .serialLaunch k ∧ b ≠ .serialCopy k) →
          exec (.queueDisable q) s = .next (put { x with en := false, state := .disabled, block := none }))) ∧
      (x.state = .stopped ∨ x.state = .error → exec (.queueRestart q) s = .next (put { x with
        list := none, stack := [], code := 0, state := .running, block := none })) ∧
      (x.state ≠ .stopped → x.state ≠ .error → exec (.queueRestart q) s = .next (put x))) ∧
    (x.state ≠ .blocked → exec (.entryUnblock q) s = .next s) ∧
    (∀ j v, x.state = .blocked → x.block = some (.waitEvent j v) →
      ((s.event j).toNat < v.toNat → exec (.entryUnblock q) s = .next s) ∧
      (v.toNat ≤ (s.event j).toNat → exec (.entryUnblock q) s = .next (s.doneEntry q))) ∧
    (∀ k, x.state = .blocked → x.block = some (.serialCopy k) →
      ((∃ c ∈ s.copies, c.id = k) → exec (.entryUnblock q) s = .next s) ∧
      ((∀ c ∈ s.copies, c.id ≠ k) → exec (.entryUnblock q) s = .next (s.doneEntry q))) ∧
    -- the end of a COPY
    (∀ k, (∀ c ∈ s.copies, c.id ≠ k) → exec (.copyComplete k) s = .next s) ∧
    (∀ k c, s.copies.find? (fun y => y.id == k) = some c →
      let n := queueLantern c.queue
      let rest : State := { s with copies := s.copies.filter fun y => y.id != k }
      (s.wcy < c.ready → exec (.copyComplete k) s = .next s) ∧
      (c.ready ≤ s.wcy →
        (∀ u v src dst, rest.piecesVa n c.src c.len false = (u, .ok src) → u.piecesVa n c.dst c.len true = (v, .ok dst) →
          let r := v.readMarked src
          exec (.copyComplete k) s = .next ((r.1.copyPieces dst r.2.1 r.2.2).bump .completion c.evt)) ∧
        (∀ u code, rest.piecesVa n c.src c.len false = (u, .error code) →
          exec (.copyComplete k) s = .next (u.bump .completion c.evt)) ∧
        (∀ u v src code, rest.piecesVa n c.src c.len false = (u, .ok src) → u.piecesVa n c.dst c.len true = (v, .error code) →
          exec (.copyComplete k) s = .next (v.bump .completion c.evt)))) ∧
    -- the bytes that it copies within slice memory
    (∀ a b n, s.dram.wf = true →
      let r := s.readMarked [(⟨0, a⟩, n)]
      let m := (r.1.copyPieces [(⟨0, b⟩, n)] r.2.1 r.2.2).dram
      ∀ j, m.byte j = if b ≤ j ∧ j < b + n then s.dram.byte (a + (j - b)) else s.dram.byte j)

/-- R290 to R292 and R294: the entries of a queue and of command lists. The walker moves past an entry once it is done, and
stops in ERROR with 0x0801 on one that its type does not allow. That both ranges of a COPY are translated when it is taken up is log
entry 82, and when it lands log entry 6. -/
def Obligations.QueueEntries : Prop :=
  ∀ (s s1 : State) (q : Fin 20) e bs, s.presents q s1 e bs →
    let n := queueLantern q.val
    (∀ r u id, e.ty = 0x01 → launchReq q.val bs = some r → s1.unplaced q = false →
      s1.acceptLaunch { r with byInsn := false } = (u, .ok id) →
      exec (.launchEntry q) s = .next (if r.serial then u.blockEntry q (.serialLaunch id) else u.doneEntry q)) ∧
    (e.ty = 0x02 → e.only false true false true false → e.evt < 1024 →
      exec (.waitEntry q) s = .next (if e.w1 ≤ (s1.event e.evt).toNat then s1.doneEntry q
        else s1.blockEntry q (.waitEvent e.evt (BitVec.ofNat 64 e.w1)))) ∧
    (e.ty = 0x03 → e.only true true false true false → e.evt < 1024 →
      ∀ op, (e.flags, op) ∈ [(0, EvOp.set), (1, .add), (2, .max)] →
        exec (.signalEntry q) s = .next ((s1.signal (.walker q) op e.evt (BitVec.ofNat 64 e.w1)).doneEntry q)) ∧
    (e.ty = 0x04 → e.w3 = 0 → 0 < e.a32 → e.a32 < 256 → ∀ c, (e.flags % 8, c) ∈
        [(0, Cond.eq), (1, .ne), (2, .lt), (3, .ge), (4, .ltu), (5, .geu)] →
      (∀ x, 8 ≤ e.flags → e.flags < 16 → e.evt < 1024 → e.w2 = 0 → x = s1.event e.evt →
        exec (.skipif q) s = .next (if condHolds c x (BitVec.ofNat 64 e.w1) then s1.modQueue q fun y => y.skip e.a32
          else s1.doneEntry q)) ∧
      (∀ u x, e.flags < 8 → e.evt = 0 → e.w2 % 8 = 0 → s1.readBytes n e.w2 8 = (u, .ok x) →
        exec (.skipif q) s = .next (if condHolds c (BitVec.ofNat 64 (leNat x)) (BitVec.ofNat 64 e.w1)
          then u.modQueue q fun y => y.skip e.a32 else u.doneEntry q))) ∧
    (e.ty = 0x05 → e.evt = 0 → e.w3 = 0 →
      (e.flags = 0 → q.val < 16 → e.a32 < (s1.queue q).size / 32 → e.w1 = 0 → e.w2 = 0 →
        exec (.jump q) s = .next (s1.modQueue q fun x => { x with list := none, stack := [], head := e.a32 })) ∧
      (e.flags = 1 → e.a32 = 0 → listNamed e.w1 e.w2 → (s1.queue q).list.isSome = true →
        exec (.jump q) s = .next (s1.modQueue q fun x => { x with list := some ⟨e.w1, e.w1 + e.w2⟩ }))) ∧
    (e.ty = 0x06 → e.only false false false true true → listNamed e.w1 e.w2 → (s1.queue q).csd < 8 →
      exec (.callEntry q) s = .next (s1.modQueue q fun x => { x.advance with
        list := some ⟨e.w1, e.w1 + e.w2⟩, stack := x.advance.list :: (if x.list.isSome then x.stack else []) })) ∧
    (e.ty = 0x07 → e.only false false false false false → (s1.queue q).csd ≠ 0 →
      exec (.returnEntry q) s = .next (s1.modQueue q fun x => { x with list := x.stack.headD none, stack := x.stack.drop 1 })) ∧
    (∀ u v, e.ty = 0x08 → e.flags < 2 → e.evt < 1024 → e.a32 ≠ 0 → e.w3 = 0 → s1.checkVa n e.w1 e.a32 false = (u, none) →
      u.checkVa n e.w2 e.a32 true = (v, none) →
      let id := v.mod_.nextCopy
      let w := { v with copies := v.copies ++ [(⟨id, q.val, e.evt, e.a32, e.w1, e.w2, v.wcy + v.timing.copy⟩ : QCopy)]
                        mod_ := { v.mod_ with nextCopy := id + 1 } }
      exec (.copyEntry q) s = .next (if e.flags = 1 then w.blockEntry q (.serialCopy id) else w.doneEntry q)) ∧
    (∀ r u, e.ty = 0x09 → e.flags = 0 → e.evt < 1024 → e.a32 = 0 → e.w2 % 64 = 0 → e.w3 = 0 →
      s1.mod_.wlog.find? (fun x => x.launch == e.w1) = some r → s1.checkVa n e.w2 64 true = (u, none) →
      exec (.witnessEntry q) s = .next (((u.writeVa n e.w2 r.bytes).bump .completion e.evt).doneEntry q)) ∧
    (e.ty = 0x0F → e.only false false false false false →
      exec (.endEntry q) s = .next ((s1.doneEntry q).queueStop q .stopped 0)) ∧
    (e.w3 ≠ 0 →
      (e.ty = 0x02 → exec (.waitEntry q) s = .next (s1.queueStop q .error 0x0801)) ∧
      (e.ty = 0x03 → exec (.signalEntry q) s = .next (s1.queueStop q .error 0x0801)) ∧
      (e.ty = 0x04 → exec (.skipif q) s = .next (s1.queueStop q .error 0x0801)) ∧
      (e.ty = 0x05 → exec (.jump q) s = .next (s1.queueStop q .error 0x0801)) ∧
      (e.ty = 0x06 → exec (.callEntry q) s = .next (s1.queueStop q .error 0x0801)) ∧
      (e.ty = 0x07 → exec (.returnEntry q) s = .next (s1.queueStop q .error 0x0801)) ∧
      (e.ty = 0x08 → exec (.copyEntry q) s = .next (s1.queueStop q .error 0x0801)) ∧
      (e.ty = 0x09 → exec (.witnessEntry q) s = .next (s1.queueStop q .error 0x0801)) ∧
      (e.ty = 0x0F → exec (.endEntry q) s = .next (s1.queueStop q .error 0x0801)))

/-! ## Events of tiles (chapters 4, 8, 10, 12 and 14) -/

/-- R40, R99, R163, R175, R178, R254, R279 to R281, R310, R320, R342 and R359: what lands or ends on one tile or Lantern in a cycle.
A landing is taken at its cycle and not before; of two on one register in a cycle the later-issued prevails; R151: AGOUT and AGRD of
the cycle in which a position lands still find the generators without it. The steps and contributions
of M instructions land in their accumulators, MOUT reads its set and its rows are written; a header is served; and at the end of a
tape its STATE record is applied. A remote ADD of 0 and a poisoned target are log entry 54, the fault of a STATE record that cannot be
read, its SLOT 0 and its cycle log entry 56, the outputs that a poisoned count spoils log entry 97, which landings AGOUT and AGRD do
not see log entry 109. -/
def Obligations.TileEvents : Prop :=
  ∀ (s : State),
    (∀ i t x, s.tile? i = some t → t.core.lands = [x] →
      let landed := ({ t with core := { t.core with lands := [] } } : Tile).apply x.eff
      ((s.tileEnv t).reached x.due = true → exec (.resultLands (.tile i)) s = .next (s.setTile i
        (if x.eff.isPosition then { landed with agPrev := some ((s.cluster t).scy, t.gens) } else landed))) ∧
      ((s.tileEnv t).reached x.due = false → exec (.resultLands (.tile i)) s = .next (s.setTile i t))) ∧
    (∀ i t d v w m n x y, s.tile? i = some t → t.core.lands = [⟨x, m, .reg d v⟩, ⟨y, n, .reg d w⟩] →
      (s.tileEnv t).reached x = true → (s.tileEnv t).reached y = true → m ≠ n → d ≠ .s 0 →
      ∃ u, exec (.resultLands (.tile i)) s = .next (s.setTile i u) ∧ u.core.readS d = if m < n then w else v) ∧
    (∀ n x, (s.lanterns.get n).core.lands = [x] → ((s.lanterns.get n).env s.wcy).reached x.due = true →
      exec (.resultLands (.lantern n)) s = .next (s.modLantern n fun l =>
        { l with core := ({ l.core with lands := [] } : Core).apply x.eff })) ∧
    (∀ i t x z, s.tile? i = some t → t.mtasks = [x] → x.act = .clear z → (s.tileEnv t).reached x.due = true →
      exec (.matrixStepLands i) s =
        .next (s.setTile i { t with mtasks := [], mctx := [], acc := t.acc.set z .reset })) ∧
    (∀ i t, s.tile? i = some t → (∀ x ∈ t.mtasks, (s.tileEnv t).reached x.due = false) →
      exec (.matrixStepLands i) s = .next (s.setTile i
        { t with mctx := t.mctx.filter fun c => t.mtasks.any fun x => x.mseq == c.seq })) ∧
    (∀ i, ∃ u, exec (.matrixStepLands i) s = .next u ∧ (∀ k, k ≠ i → u.tile? k = s.tile? k) ∧ u.dram = s.dram ∧
      u.host = s.host ∧ u.lanterns = s.lanterns) ∧
    (∀ i t x c, s.tile? i = some t → t.mtasks = [x] → t.mctx = [c] → c.seq = x.mseq → (s.tileEnv t).reached x.due = true →
      let set := t.acc.get c.z
      let put (u : Tile) : Prop := exec (.matrixStepLands i) s = .next (s.setTile i u)
      (∀ cs, x.act = .land cs → put { t with mtasks := [], mctx := [], acc := t.acc.set c.z (set.addAll cs) }) ∧
      (∀ d, x.act = .steps [d] → d.errs = [] → put { t with
        mtasks := [], mctx := [], acc := t.acc.set c.z (set.addAll ((c.contribs d).map (·.1) ++ c.spoiled)) }) ∧
      (∀ g z pair h f, x.act = .readSet → c.op = .mout g z pair h → elemFmt (hFmt c.ha) = some f →
        ∃ u, put u ∧ u.acc = t.acc ∧ u.sp = t.sp ∧ u.mctx = [c] ∧ u.mtasks = (List.range 8).map fun k =>
          ⟨⟨.mat, c.base + (2 + k)⟩, c.seq, .write (moutRows c t f k).1 (c.base + 3 + k)⟩) ∧
      (∀ ws vis, x.act = .write ws vis → (∀ w, (t.sp.mark w).err = .clean) → put { t with
        mtasks := [], mctx := [], wbuf := t.wbuf ++ ws.flatMap (lineWords ⟨.mat, vis⟩ c.seq c.slot true) })) ∧
    (∀ i t n, s.tile? i = some t → t.run = .waiting n →
      exec (.waitsExpiry i) s =
        .next (s.setTile i (if n ≤ (s.cluster t).scy then { t with run := .running } else t))) ∧
    (∀ i t d, s.tile? i = some t → t.bank1.wake = some d → t.bank2.wake = none → (s.tileEnv t).reached d = true →
      ∃ u, exec (.bankWake i) s = .next (s.setTile i u) ∧ u.bank1 = ⟨.on, none⟩ ∧ u.bank2 = t.bank2 ∧
        u.bankclr = (t.bankclr || t.bank1.st == .off) ∧ ∀ k : Fin 48, u.core.s.get k =
          if t.bank1.st = .off ∧ 16 ≤ k.val ∧ k.val < 32 then ⟨0, false, false⟩ else t.core.s.get k) ∧
    (∀ i t, s.tile? i = some t → ∃ u, exec (.routeActExpiry i) s = .next (s.setTile i u) ∧
      u = { t with act := u.act } ∧ ∀ k : Fin 16, u.act.get k = t.act.get k - 1) ∧
    (∀ i t x lane w, s.tile? i = some t → t.accs = [x] → x.op = .serve lane w → (s.tileEnv t).reached x.due = true →
      let now := (s.cluster t).scy
      let op := (ratomOf (w.data.toNat % 2 ^ 64)).1
      let a := w.data.toNat % 2 ^ 21
      let n := t.core.seq + 1
      a % 8 = 0 → bankOf a ∉ t.claims →
      let granted : Tile := { t with accs := [], claims := t.claims ++ [bankOf a], core := { t.core with seq := n } }
      exec (.remoteAccessService i) s = .next ((s.setTile i granted).doServe i { x with seq := n } now w fun r v =>
        v.modTile i fun u => u.putSnd (now + 1) r) ∧
      ((∀ k, (t.sp.mark k).err = .clean) →
        let old : Word := BitVec.ofNat 64 (t.sp.read a 8)
        let operand : Word := BitVec.ofNat 64 (w.data.toNat / 2 ^ 64)
        let bad := t.sp.poisoned a 8
        exec (.remoteAccessService i) s = .next (s.setTile i { granted with
          arrivals := t.arrivals ++ [⟨.snd, now + 1, ⟨BitVec.ofNat 128 old.toNat, w.tag, bad || w.poison, false⟩, none⟩]
          wbuf := t.wbuf ++ if op = .add ∧ operand = 0 ∧ w.poison = false then []
            else lineWords ⟨.ref, now + 1⟩ n x.slot false
              (LineWrite.plain a (leBytes 8 (atomValue op old operand 0).toNat) (w.poison || (bad && decide (op ≠ .swap)))) }))) ∧
    (∀ i t, s.tile? i = some t →
      (t.rep.active = false → exec (.replayCmdIssue i) s = .next s ∧ exec (.tapeEndResume i) s = .next s) ∧
      (∀ u, t.rep.active = true → Tile.readAhead (s.cluster t).scy (taperWords + 1) t = (u, none) →
        exec (.replayCmdIssue i) s = .next (s.setTile i u)) ∧
      (∀ n k w, t.rep.active = true → t.rep.endAt = some n → n ≤ (s.cluster t).scy → t.rep.queue = [] →
        t.rep.stateAt = some k → t.run ≠ .done → t.taperWord k = some w →
        (t.stateGood k = false → exec (.tapeEndResume i) s = .next
          ((s.faultTile i 0x0704 (BitVec.ofNat 64 (8 * k)) 0 (s.cluster t).scy).modTile i fun u =>
            { u with rep := { u.rep with active := false } })) ∧
        (t.stateGood k = true → ∃ u, exec (.tapeEndResume i) s = .next (s.setTile i u) ∧
          u.rep.active = false ∧ u.rep.bit = false ∧ u.core.pc = t.rep.enter.getD (w % 2 ^ 32) ∧ u.core.xfer = none ∧
          let at_ (j : Nat) : Nat := (t.taperWord (k + 1 + j)).getD 0
          (∀ n < 57, u.core.readS (maskPlace n) =
            if (at_ 0).testBit n then
              ⟨BitVec.ofNat 64 (at_ (5 + ((List.range n).filter fun j => (at_ 0).testBit j).length)), false, false⟩
            else if (at_ 4).testBit n then ⟨0, true, false⟩ else t.core.readS (maskPlace n)) ∧
          (∀ n : Fin 16, u.core.readQ n =
            if (at_ 1).testBit (16 + n.val) then ⟨(at_ 1).testBit n.val, false, false⟩
            else if (at_ 1).testBit (32 + n.val) then ⟨false, true, false⟩ else t.core.readQ n) ∧
          ∀ n : Fin 4, u.core.b.get n = BitVec.ofNat 32 (at_ (2 + n.val / 2) / 2 ^ (32 * (n.val % 2))))))

/-- R224, R228, R232, R311, R312, R340 and R344: words that leave a seam buffer and reach a switch, window checks, and copies
that land. That a command lands wholly in one step once it may is log entry 29, two words on one lane log entry 95. -/
def Obligations.MeshAndCopyEvents : Prop :=
  ∀ (s : State) i t, s.tile? i = some t →
    let now := (s.cluster t).scy
    (∀ a x, t.arrivals = [a] → a.seam = some x → a.at_ = now → x.late = false → exec (.seamBufferRelease i) s =
      .next (s.setTile i { t with arrivals := [{ a with seam := none }] })) ∧
    (∀ a x, t.arrivals = [a] → a.seam = some x → a.at_ = now → x.late = true → exec (.seamBufferRelease i) s =
      .next (((s.setTile i { t with arrivals := [{ a with word := { a.word with poison := true }, seam := none }] }).modLamp
        x.site fun l => { l with over_ := true }).seamFault t.region x.site x.edge x.gate)) ∧
    (∀ a, t.arrivals = [a] → a.seam = none → a.at_ = now → t.segments = [(a.lane.code, 16)] → a.word.header = false →
      (t.rq.length < 8 → exec (.meshWordArrival i) s =
        .next (s.setTile i { t with arrivals := [], rq := t.rq ++ [a.word] })) ∧
      (8 ≤ t.rq.length → exec (.meshWordArrival i) s =
        .next ((s.setTile i { t with arrivals := [] }).faultTile i 0x0204 10 7 now))) ∧
    (∀ a, t.arrivals = [a] → a.seam = none → a.at_ = now → t.segments = [(a.lane.code, 16)] → a.word.header = true →
      exec (.meshWordArrival i) s = .next (s.setTile i { t with
        arrivals := [], accs := t.accs ++ [⟨⟨.ref, now + 1⟩, 0, 7, now + 1, 0, .serve a.lane a.word⟩] })) ∧
    (∀ a b, t.arrivals = [a, b] → a.seam = none → b.seam = none → a.at_ = now → b.at_ = now → a.lane = b.lane →
      exec (.meshWordArrival i) s = .next ((s.setTile i { t with arrivals := [] }).faultTile i 0x0204
        (if a.lane = .snd then 5 else BitVec.ofNat 64 (6 + a.lane.code)) 7 now)) ∧
    (∀ a, t.arrivals = [a] → a.seam = none → a.at_ = now → t.segments = [] → exec (.meshWordArrival i) s =
      .next ((s.setTile i { t with arrivals := [] }).faultTile i 0x0204
        (if a.lane = .snd then 5 else BitVec.ofNat 64 (6 + a.lane.code)) 7 now)) ∧
    (∀ w n, (t.wins.get w).chk = some n →
      let x := t.wins.get w
      let put (y : Window) : State := s.setTile i { t with wins := t.wins.set w y }
      (now + 96 < n → exec (.windowCheckEval i w) s = .next s) ∧
      (n ≤ now + 96 → x.satisfied = true → x.raised = false →
        exec (.windowCheckEval i w) s = .next (put { x with chk := none, raised := false })) ∧
      (n ≤ now + 96 → x.satisfied = true → x.raised = true → exec (.windowCheckEval i w) s =
        .next ((put { x with chk := none, raised := false }).withdrawStall t.region (.window i w))) ∧
      (n ≤ now + 96 → x.satisfied = false → x.raised = true → exec (.windowCheckEval i w) s = .next s) ∧
      (n ≤ now + 96 → x.satisfied = false → x.raised = false → exec (.windowCheckEval i w) s =
        .next ((put { x with raised := true }).modRegion t.region fun r =>
          { r with stalls := r.stalls ++ [⟨.window i w, s.wcy, none⟩], wreq := r.wreq + 1 }))) ∧
    (∀ k c, t.cmds.find? (fun x => x.ord == k && !x.kind.isStream) = some c →
      (s.mayLand t c = true → exec (.copyLanding i k) s = .next (s.landCmd i c)) ∧
      (s.mayLand t c = false → exec (.copyLanding i k) s = .next s)) ∧
    (∀ w p c, t.cmds.find? (fun x => x.win == w && x.kind == .fill p) = some c →
      (s.mayLand t c = true → exec (.slotFillLands i w p) s = .next (s.landCmd i c)) ∧
      (s.mayLand t c = false → exec (.slotFillLands i w p) s = .next s)) ∧
    (∀ w p c, t.cmds.find? (fun x => x.win == w && x.kind == .drain p) = some c →
      (s.mayLand t c = true → exec (.slotDrainLands i w p) s = .next (s.landCmd i c)) ∧
      (s.mayLand t c = false → exec (.slotDrainLands i w p) s = .next s)) ∧
    -- a landed command: its bytes and its window
    (∀ c src n, t.cmds = [c] → c.kind = .cpyloc src → c.dims = [⟨n, 1, 1⟩] → 0 ≤ c.sbase → t.sp.wf = true →
      t.sp.correctables src n = [] → t.sp.uncorrectables src n = [] → t.sp.correctables c.sbase.toNat n = [] →
      t.sp.uncorrectables c.sbase.toNat n = [] →
      ∃ u, s.landCmd i c = s.setTile i u ∧ u.cmds = [] ∧ u.wins = t.wins.set c.win ((t.wins.get c.win).credit c.total) ∧
        ∀ a, u.sp.byte a = if c.sbase.toNat ≤ a ∧ a < c.sbase.toNat + n then t.sp.byte (src + (a - c.sbase.toNat))
          else t.sp.byte a)

/-! ## Events of regions and launches (chapters 8, 11, 14 and 15) -/

/-- R24 to R26, R28, R236 to R238, R297, R343, R345, R347, R355 and R368: what a region does as a whole. That TRIES rises at re-entry
is log entry 43, and how long a publish propagates and a save lasts is log entry 6. -/
def Obligations.RegionEvents : Prop :=
  ∀ (s : State) r x l, s.holds r x l →
    (∀ n, x.phase = .armed n → x.haltReq = none →
      (n ≤ s.wcy → exec (.waitwRelease r) s = .next (s.enter r l.img)) ∧
      (s.wcy < n → exec (.waitwRelease r) s = .next s)) ∧
    (∀ k c, x.clusters[k]? = some c →
      let held := if s.wcy % 4096 = 0 then 0 else c.held + 1
      (c.hold = 0 → exec (.realignHoldEnd r k) s = .next s) ∧
      (1 < c.hold → exec (.realignHoldEnd r k) s = .next (s.modCluster r k fun c =>
        { c with hold := c.hold - 1, held := held })) ∧
      (c.hold = 1 → exec (.realignHoldEnd r k) s = .next ((s.modCluster r k fun c => { c with hold := 0, held := 0 }).modLamp
        c.site fun y => { y with drift := y.drift - held })) ∧
      exec (.grantLatch r k) s = .next (s.modCluster r k fun c =>
        Cluster.retarget { c with
          grant := (((c.grants.filter fun y => y.1 ≤ c.scy).getLast?).map (·.2)).getD c.grant
          grants := c.grants.filter fun y => c.scy < y.1 } l.img)) ∧
    (x.phase = .running → x.hardReq = false ∨ x.haltReq ≠ none → x.frozenAt s.wcy = true → exec (.regionFreeze r) s = .next (s.modRegion r fun y =>
      { y with frozen := y.frozen + 1, nfrz := if y.wasFrozen then y.nfrz else y.nfrz + 1, wasFrozen := true })) ∧
    (x.phase = .running → x.hardReq = true → x.haltReq = none → (∃ y ∈ x.stalls, y.by_ = .lantern ∧ y.freezes s.wcy = true) →
      exec (.regionFreeze r) s = .next (s.modRegion r fun y =>
        { y with frozen := y.frozen + 1, nfrz := if y.wasFrozen then y.nfrz else y.nfrz + 1, wasFrozen := true,
                 phase := .saving true (s.wcy + s.timing.save), stopW := s.wcy })) ∧
    (x.frozenAt s.wcy = false → exec (.regionFreeze r) s = .next s) ∧
    exec (.regionRelease r) s = .next (s.modRegion r fun y => if y.frozenAt s.wcy then y else
      { y with wasFrozen := false, stalls := y.stalls.filter fun a => a.withdrawn.all fun n => decide (s.wcy < n + 96) }) ∧
    (∀ h, x.haltReq = some h → s.wcy < h.at_ → x.phase = .running → exec (.faultHalt r) s = .next s) ∧
    (∀ h, x.haltReq = some h → h.at_ ≤ s.wcy → x.publishes ≠ [] →
      ∃ t, exec (.faultHalt r) s = .next t ∧ t.region? r =
        some { x with phase := .halted, stalls := [], haltReq := none, wasFrozen := false, stopW := s.wcy } ∧
        t.syncs = s.syncs.filter fun q => !((s.tile? q.tile).any fun u => u.region == r)) ∧
    (∀ n, x.phase = .retryWait n → s.wcy < n → exec (.retry r) s = .next s) ∧
    (∀ n, x.phase = .retryWait n → n ≤ s.wcy → ∃ t y, exec (.retry r) s = .next t ∧ t.region? r = some y ∧
      y.phase = .running ∧ y.retrying = true ∧ y.fault.tries = x.fault.tries + 1 ∧ y.bphase = x.boundary.phase ∧
      y.publishes = [] ∧ y.poison = false ∧ ∀ (k : Nat) c, y.clusters[k]? = some c →
        c.fid = s.fidAt c.site l.img.fidelity ∧ c.hold = 0 ∧ c.slip = 0) ∧
    (∀ p ps, x.publishes = p :: ps →
      (p.merged.isSome = true ∨ s.wcy < p.ready → exec (.publishMerge r) s = .next s) ∧
      (p.merged = none → p.ready ≤ s.wcy → s.phaseOpen r p.phase = false → p.boundary = none → p.final = false →
        exec (.publishMerge r) s = .next (((s.landFills r p.phase).mergePhase r p.phase).modRegion r fun y =>
          { y with publishes := { p with merged := some (s.wcy + s.timing.propagate) } :: ps })) ∧
      (∀ n, p.merged = some n → s.wcy < n → exec (.publishPropagated r) s = .next s) ∧
      (∀ n, p.merged = some n → n ≤ s.wcy → p.boundary = none → p.final = false →
        let t := s.modRegion r fun y => { y with publishes := ps }
        exec (.publishPropagated r) s = .next (if ps = [] then t.withdrawStall r .publish else t))) ∧
    (s.wcy % 4096 ≠ 0 → exec (.lamplighterSample r) s = .next s) ∧
    (∀ c, s.wcy % 4096 = 0 → x.clusters = [c] → x.cw = 1 → x.ch = 1 → c.site < 80 →
      exec (.lamplighterSample r) s = .next ((s.modLamp c.site fun y => { y with nsamp := y.nsamp + 1, drift := 0 }).modRegion r
        fun y => { y with clusters := y.clusters.map fun c => { c with held := 0 } }))

/-- R24, R64, R192, R257, R268, R292, R296 to R298, R355, R357 and R358: the course of a launch. -/
def Obligations.LaunchEvents : Prop :=
  ∀ (s : State),
    (∀ id x n, s.regionOfLaunch id = some x → x.expiry = some n →
      (s.wcy < n → exec (.leaseExpiry id) s = .next s) ∧
      (n ≤ s.wcy → exec (.leaseExpiry id) s = .next
        ({ s.modRegion x.id fun y => { y with leaseLevel := none, expiry := none } with
            mod_ := { s.mod_ with leases := s.mod_.leases.filter fun y => y.1 != id } }.sendLevel x.id s.mod_.sus))) ∧
    (∀ nj, ∃ t, exec (.energyUpdate nj) s = .next t ∧
      ∀ (k : Nat) x l, s.regions[k]? = some x → s.launch? x.launch = some l →
        let e := (x.clusters.map fun c => Config.railEnergy c.site nj).sum
        t.regions[k]? = some { x with
          ebal := min (x.ebal + l.desc.efill) ((1000 * l.desc.ecap : Nat) : Int) - (e : Int), echg := x.echg + e }) ∧
    (∀ r x l, s.holds r x l →
      (∀ n, x.softReq = some n → s.wcy ≤ n + l.img.maxintv → exec (.preemptEscalate r) s = .next s) ∧
      (x.haltReq ≠ none ∨ (∃ p ∈ x.publishes, p.boundary ≠ none) → exec (.preemptEscalate r) s = .next s) ∧
      (∀ n, x.softReq = some n → n + l.img.maxintv < s.wcy → x.phase = .running → x.hardReq = false → x.retrying = false →
        x.haltReq = none → (∀ p ∈ x.publishes, p.boundary = none) →
        exec (.preemptEscalate r) s = .next (s.modRegion r fun y =>
          { y with stalls := y.stalls ++ [⟨.lantern, s.wcy, none⟩], hardReq := true })) ∧
      (x.phase = .loaded → l.kept = none → ∃ t y, exec (.regionStart r) s = .next t ∧ t.region? r = some y ∧
        y.phase = .running ∧ ∀ (i : Nat) u, t.tile? i = some u → u.region = r → u.run = .running) ∧
      (x.phase ≠ .loaded → s.launch? x.launch = some l → exec (.regionStart r) s = .next s) ∧
      (x.phase = .loaded → l.kept = some .hard → ∃ t y, exec (.regionStart r) s = .next t ∧ t.region? r = some y ∧
        y.phase = (match x.endAt with
          | some h => .ending h
          | none => .running)) ∧
      (∀ n, x.phase = .ending n → ((s.tilesOf r).all (·.quiet) = false ∨ x.publishes ≠ [] ∨ x.haltReq ≠ none ∨
          ∃ y ∈ x.stalls, ∀ v, y.withdrawn = some v → s.wcy < v + 96) →
        exec (.launchComplete r) s = .next s) ∧
      (∀ n, x.phase = .ending n → (s.tilesOf r).all (·.quiet) = true → x.publishes = [] → x.haltReq = none →
          (∀ y ∈ x.stalls, ∃ v, y.withdrawn = some v ∧ v + 96 ≤ s.wcy) →
        exec (.launchComplete r) s =
          .next ((s.modRegion r fun y => { y with phase := .publishing n }).closePhase r n none true)) ∧
      (∀ n, x.phase = .finished n → l.copiesTapes = true → exec (.launchComplete r) s = .next s) ∧
      (∀ n, x.phase = .finished n → l.copiesTapes = false →
        exec (.launchComplete r) s = .next (s.endLaunch l.id x.launchFault 0 n))) ∧
    (∀ id l x, s.launch? id = some l → s.regionOfLaunch id = some x →
      (∀ n hard, x.phase = .saving hard n → s.wcy < n → exec (.saveComplete id) s = .next s) ∧
      (∀ n, x.phase = .saving false n → n ≤ s.wcy → x.publishes = [] → x.haltReq = none →
        exec (.saveComplete id) s = .next ((s.leave l x .soft).bump .completion l.desc.evpre)) ∧
      (∀ n, x.phase = .saving true n → n ≤ s.wcy → x.publishes = [] → x.haltReq = none → (∀ t ∈ s.tilesOf x.id, t.cmds = []) →
        exec (.saveComplete id) s = .next ((s.leave l x .hard).bump .completion l.desc.evpre)) ∧
      (∀ n hard, x.phase = .saving hard n → x.publishes ≠ [] ∨ x.haltReq ≠ none ∨ (hard = true ∧ ∃ t ∈ s.tilesOf x.id, t.cmds ≠ []) →
        exec (.saveComplete id) s = .next s) ∧
      (∀ n, x.phase = .loading n → s.wcy < n → exec (.launchLoad id) s = .next s) ∧
      (∀ n, x.phase = .loading n → n ≤ s.wcy → l.kept = none → l.replay = false → s.region? x.id = some x →
        let loads (phase : RegionPhase) : Prop := ∃ t, exec (.launchLoad id) s = .next t ∧ t.region? x.id = some { x with phase := phase }
        (firstWaitw l.img.code l.img.entry = none → loads .loaded) ∧
        ∀ j, firstWaitw l.img.code l.img.entry = some j →
          let wt := (l.args.getD j 0).toNat
          s.wcy + 96 ≤ wt → loads (.armed wt)) ∧
      (∀ n, x.phase = .finished n → l.copiesTapes = false → exec (.tapeSetCopy id) s = .next s) ∧
      (∀ n t code, x.phase = .finished n → l.copiesTapes = true →
        let w := s.modTiles x.id fun u => u.finishTape l
        let ts := w.tilesOf x.id
        w.checkSlots l ts = (t, code) →
        exec (.tapeSetCopy id) s = .next (if code = 0
          then (ts.foldl (fun v u => v.writeVa (queueLantern l.queue) (l.tapeVa + u.posn * 0x40000)
            (u.tape.bytes 0 (64 + 8 * u.rec_.nrec))) t).modLaunch id fun u => { u with tapeDone := true }
          else t.modLaunch id fun u => { u with tapeDone := true, tapeCode := code }))) ∧
    (∀ id l, s.launch? id = some l →
      (l.evDue = true → exec (.completionEvent id) s =
        .next ((s.bump .completion l.evt).modLaunch id fun u => { u with evDue := false })) ∧
      (l.evDue = false → exec (.completionEvent id) s = .next s)) ∧
    (s.mod_.decisions = 0 → exec .schedulerDecision s = .next s) ∧
    (s.mod_.decisions ≠ 0 →
      let u : State := { s with mod_ := { s.mod_ with decisions := s.mod_.decisions - 1 } }
      (s.launches = [] → exec .schedulerDecision s = .next u) ∧
      (∀ l rect, s.launches = [l] → l.state = .waiting → l.cls < 5 → l.queue < 20 → l.short = false → u.freeRect l = some rect →
        l.chosen = true ∨ u.portsBad l rect = false → (1000 * l.desc.ecost : Nat) ≤ l.ebal → exec .schedulerDecision s =
          .next (({ u with mod_ := { u.mod_ with
            served := u.mod_.served.set (Fin.ofNat 5 l.cls) l.queue } }.placeAt l rect).again)))

/-! ## Wafer links (chapter 16) -/

/-- R254, R265, R266 and R390 to R392: what brings a port up and down, and what it does with a flit that arrives; the home tile serves a
header in the next reference cycle, and one that was applied before is answered again. That exhaustion and the loss of block lock
drop the whole window is log entry 58; a word lost at a full buffer is log entry 96. The service of a header at the
home tile in the next reference cycle is log entry 55. -/
def Obligations.LinkEvents : Prop :=
  ∀ (s : State) (p : Fin 32),
    let x := s.ports.get p
    let put (y : Port) : State := { s with ports := s.ports.set p y }
    (∀ peer delay, exec (.linkUp p peer delay) s = .next (put { x with
      up := true, peer := peer.toNat, owd := delay, resent := 0, crce := 0
      cls := if 1260 < delay then 3 else if 600 < delay then 2 else if 520 < delay then 1 else 0 })) ∧
    (x.up = true → exec (.linkDown p) s = .next ((put { x with up := false }).raiseEvt 2)) ∧
    (x.up = false → exec (.linkDown p) s = .next s) ∧
    (∀ f, flitCrcOk f = false → exec (.linkFlitReceive p f) s = .next (put { x with
      crce := min (x.crce + 1) 0xFFFF, outbox := ctlFlit 3 x.recvSeq s.mod_.modid :: x.outbox })) ∧
    (∀ f, flitCrcOk f = true → flitType f = 1 → flitSeq f = x.recvSeq → (flitWord f).header = false →
      exec (.linkFlitReceive p f) s = .next (put { x with
        recvSeq := (x.recvSeq + 1) % 2 ^ 16
        buffer := if x.buffer.length < 256 then x.buffer ++ [flitWord f] else x.buffer
        fresh := if x.buffer.length < 256 then x.fresh + 1 else x.fresh
        lost := if x.buffer.length < 256 ∨ (flitWord f).tag ∈ x.lost then x.lost else x.lost ++ [(flitWord f).tag]
        outbox := ctlFlit 2 (flitSeq f) s.mod_.modid :: x.outbox })) ∧
    (∀ f, flitCrcOk f = true → flitType f = 1 → flitSeq f = x.recvSeq → (flitWord f).header = true →
      let modid := flitField f 168 8
      let number := flitField f 176 16
      let known := x.filter.find? fun y => y.modid == modid && y.seq == number
      let taken := put { x with recvSeq := (x.recvSeq + 1) % 2 ^ 16 }
      let acks (u : State) : Prop := exec (.linkFlitReceive p f) s = .next (u.modPort p fun y =>
        { y with outbox := ctlFlit 2 (flitSeq f) s.mod_.modid :: y.outbox })
      (∀ a, known = some a → acks (taken.sendLink p a.result)) ∧
      (∀ i t, known = none → s.holder p = some i → s.tile? i = some t → t.awaits p modid number = false →
        let now := (s.cluster t).scy
        acks (taken.setTile i { t with
          accs := t.accs ++ [⟨⟨.ref, now + 1⟩, 0, 7, now + 1, 0, .portServe p modid number (flitWord f)⟩] }))) ∧
    (∀ f, flitCrcOk f = true → flitType f = 4 → exec (.linkFlitReceive p f) s = .next s) ∧
    (∀ f, flitCrcOk f = true → flitType f = 2 → (∀ y ∈ x.window, flitSeq y.1 ≠ flitAck f) →
      exec (.linkFlitReceive p f) s = .next (put x)) ∧
    (∀ n : BitVec 16, (∀ y ∈ x.window, flitSeq y.1 ≠ n.toNat) → exec (.linkResend p n) s = .next s) ∧
    (∀ (n : BitVec 16) f k, x.window = [(f, k)] → flitSeq f = n.toNat → k < 8 → exec (.linkResend p n) s = .next (put { x with
      window := [(f, k + 1)], resent := min (x.resent + 1) 0xFFFF, outbox := f :: x.outbox })) ∧
    (x.fullFor < 4096 → (∀ y ∈ x.window, y.2 < 8) → exec (.linkRetryExhausted p) s = .next s) ∧
    (s.holder p = none → x.waiting = [] →
      (4096 ≤ x.fullFor ∨ (∃ y ∈ x.window, 8 ≤ y.2) → exec (.linkRetryExhausted p) s =
        .next (put { x with window := [], fullFor := 0 })) ∧
      (∀ (n : BitVec 16) f k, x.window = [(f, k)] → flitSeq f = n.toNat → 8 ≤ k →
        exec (.linkResend p n) s = .next (put { x with window := [], fullFor := 0 })) ∧
      exec (.linkLockLoss p) s = .next (put { x with window := [] }))

/-! ## Encoding, steps, reset and memory -/

/-- R50: the word of a class NOP, with any guard and stop bit, and the fault of one with an operand bit. R33 to R49: words
written out from the spec's encodings, and the instructions that they stand for. -/
def Obligations.WordsDecode : Prop :=
  (∀ (c : Fin 7) (g : Fin 16) (stop : Bool) (o : Nat), o < 2 ^ 18 →
    let w := stop.toNat * 2 ^ 31 + c.val * 2 ^ 28 + g.val * 2 ^ 24 + o
    slotStop w = stop ∧
    (o = 0 → ∃ i, decodeSlot w = .ok i ∧ isNop i = true ∧ encodeFields i = some (c.val, 0x00, g.val, 0)) ∧
    (o ≠ 0 → ∃ r, decodeSlot w = .error r ∧ r.code = 0x0104)) ∧
  decodeTableWord 32 0x0504_3042 = some (.add 5 (.s 3) (.s 1) (.s 2)) ∧
  decodeTableWord 32 0x0085_20FB = some (.cmpi 0 2 .lt (.s 3) (-5)) ∧
  decodeTableWord 32 0x008D_FFF0 = some (.pbt 0 1 (-16)) ∧
  decodeTableWord 32 0x1012_A312 = some (.vfma 0 .bf16 2 3 1 2) ∧
  decodeTableWord 32 0x200E_90AC = some (.mmulb 0 1 .g8 4 5 6) ∧
  decodeTableWord 32 0x3010_228B = some (.stage 0 2 (.s 10) (.s 11)) ∧
  decodeTableWord 32 0x4004_3146 = some (.agset 0 3 (.s 5) (.s 6)) ∧
  decodeTableWord 32 0xD004_C028 = some (.route 0 3 40) ∧
  decodeTableWord 32 0x6028_0C03 = some (.wchk 0 3 0 96) ∧
  decodeTableWord 32 0x6088_1083 = some (.evsig 0 .add (.s 2) (.s 3)) ∧
  decodeTableWord 32 0x7000_0000 = none

/-- R33 to R54: the decoder reads from the word of every well-formed slot instruction, with either stop bit, that
instruction. -/
def Obligations.DecodeOfEncode : Prop :=
  ∀ i stop w, i.wf = true → encode stop i = some w → decodeSlot w.toNat = .ok i ∧ slotStop w.toNat = stop

/-- R33 to R43, R100, R122, R186, R285 and R306: a step performs the next task of the wall cycle, or begins the next cycle. Where a tile
that fetches, or a Lantern that waits for nothing, is to issue, and its slots decode, the step executes them in order at the
state of the step and then chooses the next bundle; the bundle after which the transfer of an ERET is made clears EXC. No bundle
issues in a control cycle that holds a collision at the tile's port (which the model looks ahead for: log entry 44). -/
def Obligations.StepRunsWhatIsDecoded : Prop :=
  ∀ (s : State) ts,
    let rest : State := { s with agenda := ts }
    (s.agenda = [] → step s = .next s.nextCycle) ∧
    (∀ e, s.agenda = .event e :: ts → step s = exec e rest) ∧
    (∀ j t ws u, s.agenda = .issue (.tile j) :: ts → s.tile? j = some t → t.run = .running → t.rep.active = false →
      rest.willCollide j (s.cluster t).ctlLeft = false →
      ((s.cluster t).scy - (s.cluster t).clk.org) % (s.cluster t).clk.div.ctl = 0 → BundleAt t.code .tile t.core.pc ws →
      Executes (slotsOf ws) ((rest.forAgent (.tile j)).modTile j fun x =>
        x.countCs false (t.code.correctables t.core.pc (4 * ws.length))) u →
      step s = .next (u.modTile j fun x => x.afterBundle (u.launchOf x.region) (s.tileEnv t) (4 * ws.length))) ∧
    (∀ j t, s.agenda = .issue (.tile j) :: ts → s.tile? j = some t → t.run = .running →
      rest.willCollide j (s.cluster t).ctlLeft = true → step s = .next rest) ∧
    (∀ n ws u, s.agenda = .issue (.lantern n) :: ts → (s.lanterns.get n).run = true → (s.lanterns.get n).halted = false →
      (s.lanterns.get n).waits = [] → (∀ x ∈ ws, (s.lanterns.get n).inFlight x.2 = false ∧ ∀ g d e v, x.2 ≠ .evwait g d e v) →
      BundleAt (s.lanterns.get n).sram .lantern (s.lanterns.get n).core.pc ws →
      Executes (slotsOf ws) (rest.forAgent (.lantern n)) u →
      step s = .next (u.modLantern n fun x =>
        { x with core := x.core.advance x.core.pc (4 * ws.length), waits := []
                 exc := x.exc && !(x.core.xfer.any fun t => t.kind == .eret && decide (t.left ≤ 1)) }))

/-- R21, R286, R289, R387 and R397: at reset the module boots first; no launch is placed, no Lantern runs, every queue is
disabled, READY is 0, and the memories list nothing (what an unwritten byte reads as is the model's choice, log entry 2). -/
def Obligations.ResetState : Prop :=
  State.reset.agenda = [.event .powerOnBoot] ∧ State.reset.tiles = [] ∧ State.reset.regions = [] ∧
  State.reset.launches = [] ∧ (∀ n, (State.reset.lanterns.get n).run = false) ∧
  (∀ q, (State.reset.queues.get q).state = .disabled ∧ (State.reset.queues.get q).en = false) ∧
  (∀ j, State.reset.events.get j = 0) ∧ State.reset.mod_.ready = false ∧ (∀ a, State.reset.dram.byte a = 0) ∧
  State.reset.canonical

/-- Every step keeps every memory in its canonical form, whatever it performs: those of the module, the scratchpads, code stores and
Taper memories of the tiles, also of tiles that a launch keeps, and the SRAM of the Lanterns. -/
def Obligations.MemoryStaysCanonical : Prop :=
  ∀ s t, State.canonical s → step s = .next t → State.canonical t

/-- R6, R190 and R191: a write reads back byte by byte and leaves every other byte; it keeps the canonical form; the word that it
covers wholly takes its mark, and a word that it covers in part stays poisoned if it was. A write of a line through an
access port does the same for the bytes that it names. -/
def Obligations.WritesReadBack : Prop :=
  ∀ (m : Mem), m.wf = true →
    (∀ a bs p, (m.write a bs p).wf = true ∧
      (∀ b, (m.write a bs p).byte b = if a ≤ b ∧ b < a + bs.length then bs.getD (b - a) 0 else m.byte b) ∧
      (∀ w, (8 * w + 8 ≤ a ∨ a + bs.length ≤ 8 * w) → (m.write a bs p).mark w = m.mark w) ∧
      (∀ w, a ≤ 8 * w → 8 * w + 8 ≤ a + bs.length → (m.write a bs p).mark w = ⟨p, .clean⟩) ∧
      (∀ w, a < 8 * w + 8 → 8 * w < a + bs.length → ¬(a ≤ 8 * w ∧ 8 * w + 8 ≤ a + bs.length) →
        (m.write a bs p).mark w = ⟨m.wordPoisoned w || p, .clean⟩)) ∧
    (∀ due seq slot mport (w : LineWrite) b,
      let u := (lineWords due seq slot mport w).foldl (fun m x => x.merge m) m
      u.wf = true ∧
        u.byte b = if w.addr ≤ b then ((w.bytes[b - w.addr]?).join).getD (m.byte b) else m.byte b)

/-- R33 to R54: a word that decodes is the word of the instruction that it stands for, which is well-formed. -/
def Obligations.EncodeOfDecode : Prop :=
  ∀ (w : BitVec 32) i, decodeSlot w.toNat = .ok i → i.wf = true ∧ encode (slotStop w.toNat) i = some w

/-- R131 to R134, R152, R189 and R190: what an access does at its bank cycle, where no word that it touches has an error. A load
lands its bytes extended in d and l, with taint, and poison where a word is poisoned; an atomic does so with the old word; a
store's bytes are pending, and replace those of the scratchpad at their visibility cycle; a SADV behind a list acts then. HLD marks
its handle poisoned where a word's poison bit reads 1 (log entry 25). -/
def Obligations.AccessesAtTheBank : Prop :=
  ∀ (s : State) i t x scy, s.tile? i = some t → (∀ w, (t.sp.mark w).err = .clean) →
    let put (u : Tile) : State := s.setTile i u
    let lands (es : List Effect) : Tile :=
      { t with core := { t.core with lands := t.core.lands ++ es.map fun e => ⟨⟨.ctl, x.ictl + 4⟩, x.seq, e⟩ } }
    let results (d : SOp) (v : Word) (p : Bool) : Tile := lands [.reg d ⟨v, true, p⟩, .reg .l ⟨v, true, p⟩]
    let line (a : Nat) (bs : List Byte) (p : Bool) : LineWrite := ⟨a, bs.map some, bs.map fun _ => p⟩
    let writes (u : Tile) (a : Nat) (bs : List Byte) (p : Bool) : Tile :=
      { u with wbuf := u.wbuf ++ lineWords ⟨.ref, scy + 1⟩ x.seq x.slot false (line a bs p) }
    (∀ size signed a d, x.op = .load size signed a d →
      s.doAccess i x scy = put (results d (loadValue size signed (t.sp.read a size)) (t.sp.poisoned a size))) ∧
    (∀ size a v p, x.op = .store size a v p → s.doAccess i x scy = put (writes t a (leBytes size v.toNat) p)) ∧
    (∀ op a b e d, x.op = .atom op a b e d →
      let old : Word := BitVec.ofNat 64 (t.sp.read a 8)
      (t.sp.poisoned a 8 = true → s.doAccess i x scy = put (results d old true)) ∧
      (t.sp.poisoned a 8 = false → s.doAccess i x scy =
        put (writes (results d old false) a (leBytes 8 (atomValue op old b.val e.val).toNat) (b.poison || e.poison)))) ∧
    (∀ n a, x.op = .hld n a → s.doAccess i x scy =
      put (lands [.handle n (BitVec.ofNat 256 (t.sp.read a 32)) (t.sp.poisoned a 32)])) ∧
    (∀ a v p, x.op = .hst a v p → s.doAccess i x scy = put (writes t a (leBytes 32 v.toNat) p)) ∧
    (∀ w, t.wbuf = [w] →
      ((s.tileEnv t).reached w.due = true → s.commitWrites i = put { t with sp := w.merge t.sp, wbuf := [] }) ∧
      ((s.tileEnv t).reached w.due = false → s.commitWrites i = put t)) ∧
    (∀ g w p vs addr phase u, x.op = .engine (.sadv g w p) vs addr phase →
      t.advance w p x.slot phase x.seq (s.wcy + s.timing.land) = .ok u → s.doAccess i x scy = put u)
end

