-- ==== Sys2Proof/Laws/State.lean ====
section
/-! SUPPORT. What each shared update of the state leaves and writes: one lemma for a field and an update. -/

namespace Sys2Proof.Machine

/-! ## Updates of one list or table -/

@[simp] theorem State.modTile_wcy (s : State) (i : Nat) (f : Tile → Tile) : (s.modTile i f).wcy = s.wcy := rfl
@[simp] theorem State.modTile_regions (s : State) (i : Nat) (f : Tile → Tile) : (s.modTile i f).regions = s.regions := rfl
@[simp] theorem State.modTile_launches (s : State) (i : Nat) (f : Tile → Tile) : (s.modTile i f).launches = s.launches := rfl
@[simp] theorem State.modTile_lanterns (s : State) (i : Nat) (f : Tile → Tile) : (s.modTile i f).lanterns = s.lanterns := rfl
@[simp] theorem State.modTile_queues (s : State) (i : Nat) (f : Tile → Tile) : (s.modTile i f).queues = s.queues := rfl
@[simp] theorem State.modTile_events (s : State) (i : Nat) (f : Tile → Tile) : (s.modTile i f).events = s.events := rfl
@[simp] theorem State.modTile_copies (s : State) (i : Nat) (f : Tile → Tile) : (s.modTile i f).copies = s.copies := rfl
@[simp] theorem State.modTile_dram (s : State) (i : Nat) (f : Tile → Tile) : (s.modTile i f).dram = s.dram := rfl
@[simp] theorem State.modTile_host (s : State) (i : Nat) (f : Tile → Tile) : (s.modTile i f).host = s.host := rfl
@[simp] theorem State.modTile_due (s : State) (i : Nat) (f : Tile → Tile) : (s.modTile i f).due = s.due := rfl
@[simp] theorem State.modTile_dce (s : State) (i : Nat) (f : Tile → Tile) : (s.modTile i f).dce = s.dce := rfl
@[simp] theorem State.modTile_live (s : State) (i : Nat) (f : Tile → Tile) : (s.modTile i f).live = s.live := rfl
@[simp] theorem State.modTile_bands (s : State) (i : Nat) (f : Tile → Tile) : (s.modTile i f).bands = s.bands := rfl
@[simp] theorem State.modTile_fids (s : State) (i : Nat) (f : Tile → Tile) : (s.modTile i f).fids = s.fids := rfl
@[simp] theorem State.modTile_lamps (s : State) (i : Nat) (f : Tile → Tile) : (s.modTile i f).lamps = s.lamps := rfl
@[simp] theorem State.modTile_faults (s : State) (i : Nat) (f : Tile → Tile) : (s.modTile i f).faults = s.faults := rfl
@[simp] theorem State.modTile_ports (s : State) (i : Nat) (f : Tile → Tile) : (s.modTile i f).ports = s.ports := rfl
@[simp] theorem State.modTile_mod_ (s : State) (i : Nat) (f : Tile → Tile) : (s.modTile i f).mod_ = s.mod_ := rfl
@[simp] theorem State.modTile_focus (s : State) (i : Nat) (f : Tile → Tile) : (s.modTile i f).focus = s.focus := rfl
@[simp] theorem State.modTile_slot (s : State) (i : Nat) (f : Tile → Tile) : (s.modTile i f).slot = s.slot := rfl
@[simp] theorem State.modTile_second (s : State) (i : Nat) (f : Tile → Tile) : (s.modTile i f).second = s.second := rfl
@[simp] theorem State.modTile_agenda (s : State) (i : Nat) (f : Tile → Tile) : (s.modTile i f).agenda = s.agenda := rfl
@[simp] theorem State.modTile_inputs (s : State) (i : Nat) (f : Tile → Tile) : (s.modTile i f).inputs = s.inputs := rfl
@[simp] theorem State.modTile_syncs (s : State) (i : Nat) (f : Tile → Tile) : (s.modTile i f).syncs = s.syncs := rfl
@[simp] theorem State.modTile_trap (s : State) (i : Nat) (f : Tile → Tile) : (s.modTile i f).trap = s.trap := rfl
@[simp] theorem State.modTile_imms (s : State) (i : Nat) (f : Tile → Tile) : (s.modTile i f).imms = s.imms := rfl
@[simp] theorem State.modTile_timing (s : State) (i : Nat) (f : Tile → Tile) : (s.modTile i f).timing = s.timing := rfl
@[simp] theorem State.modTile_evCycle (s : State) (i : Nat) (f : Tile → Tile) : (s.modTile i f).evCycle = s.evCycle := rfl

@[simp] theorem State.setTile_wcy (s : State) (i : Nat) (t : Tile) : (s.setTile i t).wcy = s.wcy := rfl
@[simp] theorem State.setTile_regions (s : State) (i : Nat) (t : Tile) : (s.setTile i t).regions = s.regions := rfl
@[simp] theorem State.setTile_launches (s : State) (i : Nat) (t : Tile) : (s.setTile i t).launches = s.launches := rfl
@[simp] theorem State.setTile_lanterns (s : State) (i : Nat) (t : Tile) : (s.setTile i t).lanterns = s.lanterns := rfl
@[simp] theorem State.setTile_queues (s : State) (i : Nat) (t : Tile) : (s.setTile i t).queues = s.queues := rfl
@[simp] theorem State.setTile_events (s : State) (i : Nat) (t : Tile) : (s.setTile i t).events = s.events := rfl
@[simp] theorem State.setTile_copies (s : State) (i : Nat) (t : Tile) : (s.setTile i t).copies = s.copies := rfl
@[simp] theorem State.setTile_dram (s : State) (i : Nat) (t : Tile) : (s.setTile i t).dram = s.dram := rfl
@[simp] theorem State.setTile_host (s : State) (i : Nat) (t : Tile) : (s.setTile i t).host = s.host := rfl
@[simp] theorem State.setTile_due (s : State) (i : Nat) (t : Tile) : (s.setTile i t).due = s.due := rfl
@[simp] theorem State.setTile_dce (s : State) (i : Nat) (t : Tile) : (s.setTile i t).dce = s.dce := rfl
@[simp] theorem State.setTile_live (s : State) (i : Nat) (t : Tile) : (s.setTile i t).live = s.live := rfl
@[simp] theorem State.setTile_bands (s : State) (i : Nat) (t : Tile) : (s.setTile i t).bands = s.bands := rfl
@[simp] theorem State.setTile_fids (s : State) (i : Nat) (t : Tile) : (s.setTile i t).fids = s.fids := rfl
@[simp] theorem State.setTile_lamps (s : State) (i : Nat) (t : Tile) : (s.setTile i t).lamps = s.lamps := rfl
@[simp] theorem State.setTile_faults (s : State) (i : Nat) (t : Tile) : (s.setTile i t).faults = s.faults := rfl
@[simp] theorem State.setTile_ports (s : State) (i : Nat) (t : Tile) : (s.setTile i t).ports = s.ports := rfl
@[simp] theorem State.setTile_mod_ (s : State) (i : Nat) (t : Tile) : (s.setTile i t).mod_ = s.mod_ := rfl
@[simp] theorem State.setTile_focus (s : State) (i : Nat) (t : Tile) : (s.setTile i t).focus = s.focus := rfl
@[simp] theorem State.setTile_slot (s : State) (i : Nat) (t : Tile) : (s.setTile i t).slot = s.slot := rfl
@[simp] theorem State.setTile_second (s : State) (i : Nat) (t : Tile) : (s.setTile i t).second = s.second := rfl
@[simp] theorem State.setTile_agenda (s : State) (i : Nat) (t : Tile) : (s.setTile i t).agenda = s.agenda := rfl
@[simp] theorem State.setTile_inputs (s : State) (i : Nat) (t : Tile) : (s.setTile i t).inputs = s.inputs := rfl
@[simp] theorem State.setTile_syncs (s : State) (i : Nat) (t : Tile) : (s.setTile i t).syncs = s.syncs := rfl
@[simp] theorem State.setTile_trap (s : State) (i : Nat) (t : Tile) : (s.setTile i t).trap = s.trap := rfl
@[simp] theorem State.setTile_imms (s : State) (i : Nat) (t : Tile) : (s.setTile i t).imms = s.imms := rfl
@[simp] theorem State.setTile_timing (s : State) (i : Nat) (t : Tile) : (s.setTile i t).timing = s.timing := rfl
@[simp] theorem State.setTile_evCycle (s : State) (i : Nat) (t : Tile) : (s.setTile i t).evCycle = s.evCycle := rfl

@[simp] theorem State.modLantern_wcy (s : State) (n : Fin 4) (f : Lantern → Lantern) : (s.modLantern n f).wcy = s.wcy := rfl
@[simp] theorem State.modLantern_tiles (s : State) (n : Fin 4) (f : Lantern → Lantern) : (s.modLantern n f).tiles = s.tiles := rfl
@[simp] theorem State.modLantern_regions (s : State) (n : Fin 4) (f : Lantern → Lantern) : (s.modLantern n f).regions = s.regions := rfl
@[simp] theorem State.modLantern_launches (s : State) (n : Fin 4) (f : Lantern → Lantern) : (s.modLantern n f).launches = s.launches := rfl
@[simp] theorem State.modLantern_queues (s : State) (n : Fin 4) (f : Lantern → Lantern) : (s.modLantern n f).queues = s.queues := rfl
@[simp] theorem State.modLantern_events (s : State) (n : Fin 4) (f : Lantern → Lantern) : (s.modLantern n f).events = s.events := rfl
@[simp] theorem State.modLantern_copies (s : State) (n : Fin 4) (f : Lantern → Lantern) : (s.modLantern n f).copies = s.copies := rfl
@[simp] theorem State.modLantern_dram (s : State) (n : Fin 4) (f : Lantern → Lantern) : (s.modLantern n f).dram = s.dram := rfl
@[simp] theorem State.modLantern_host (s : State) (n : Fin 4) (f : Lantern → Lantern) : (s.modLantern n f).host = s.host := rfl
@[simp] theorem State.modLantern_due (s : State) (n : Fin 4) (f : Lantern → Lantern) : (s.modLantern n f).due = s.due := rfl
@[simp] theorem State.modLantern_dce (s : State) (n : Fin 4) (f : Lantern → Lantern) : (s.modLantern n f).dce = s.dce := rfl
@[simp] theorem State.modLantern_live (s : State) (n : Fin 4) (f : Lantern → Lantern) : (s.modLantern n f).live = s.live := rfl
@[simp] theorem State.modLantern_bands (s : State) (n : Fin 4) (f : Lantern → Lantern) : (s.modLantern n f).bands = s.bands := rfl
@[simp] theorem State.modLantern_fids (s : State) (n : Fin 4) (f : Lantern → Lantern) : (s.modLantern n f).fids = s.fids := rfl
@[simp] theorem State.modLantern_lamps (s : State) (n : Fin 4) (f : Lantern → Lantern) : (s.modLantern n f).lamps = s.lamps := rfl
@[simp] theorem State.modLantern_faults (s : State) (n : Fin 4) (f : Lantern → Lantern) : (s.modLantern n f).faults = s.faults := rfl
@[simp] theorem State.modLantern_ports (s : State) (n : Fin 4) (f : Lantern → Lantern) : (s.modLantern n f).ports = s.ports := rfl
@[simp] theorem State.modLantern_mod_ (s : State) (n : Fin 4) (f : Lantern → Lantern) : (s.modLantern n f).mod_ = s.mod_ := rfl
@[simp] theorem State.modLantern_focus (s : State) (n : Fin 4) (f : Lantern → Lantern) : (s.modLantern n f).focus = s.focus := rfl
@[simp] theorem State.modLantern_slot (s : State) (n : Fin 4) (f : Lantern → Lantern) : (s.modLantern n f).slot = s.slot := rfl
@[simp] theorem State.modLantern_second (s : State) (n : Fin 4) (f : Lantern → Lantern) : (s.modLantern n f).second = s.second := rfl
@[simp] theorem State.modLantern_agenda (s : State) (n : Fin 4) (f : Lantern → Lantern) : (s.modLantern n f).agenda = s.agenda := rfl
@[simp] theorem State.modLantern_inputs (s : State) (n : Fin 4) (f : Lantern → Lantern) : (s.modLantern n f).inputs = s.inputs := rfl
@[simp] theorem State.modLantern_syncs (s : State) (n : Fin 4) (f : Lantern → Lantern) : (s.modLantern n f).syncs = s.syncs := rfl
@[simp] theorem State.modLantern_trap (s : State) (n : Fin 4) (f : Lantern → Lantern) : (s.modLantern n f).trap = s.trap := rfl
@[simp] theorem State.modLantern_imms (s : State) (n : Fin 4) (f : Lantern → Lantern) : (s.modLantern n f).imms = s.imms := rfl
@[simp] theorem State.modLantern_timing (s : State) (n : Fin 4) (f : Lantern → Lantern) : (s.modLantern n f).timing = s.timing := rfl
@[simp] theorem State.modLantern_evCycle (s : State) (n : Fin 4) (f : Lantern → Lantern) : (s.modLantern n f).evCycle = s.evCycle := rfl

@[simp] theorem State.modRegion_wcy (s : State) (k : Nat) (f : Region → Region) : (s.modRegion k f).wcy = s.wcy := rfl
@[simp] theorem State.modRegion_tiles (s : State) (k : Nat) (f : Region → Region) : (s.modRegion k f).tiles = s.tiles := rfl
@[simp] theorem State.modRegion_launches (s : State) (k : Nat) (f : Region → Region) : (s.modRegion k f).launches = s.launches := rfl
@[simp] theorem State.modRegion_lanterns (s : State) (k : Nat) (f : Region → Region) : (s.modRegion k f).lanterns = s.lanterns := rfl
@[simp] theorem State.modRegion_queues (s : State) (k : Nat) (f : Region → Region) : (s.modRegion k f).queues = s.queues := rfl
@[simp] theorem State.modRegion_events (s : State) (k : Nat) (f : Region → Region) : (s.modRegion k f).events = s.events := rfl
@[simp] theorem State.modRegion_copies (s : State) (k : Nat) (f : Region → Region) : (s.modRegion k f).copies = s.copies := rfl
@[simp] theorem State.modRegion_dram (s : State) (k : Nat) (f : Region → Region) : (s.modRegion k f).dram = s.dram := rfl
@[simp] theorem State.modRegion_host (s : State) (k : Nat) (f : Region → Region) : (s.modRegion k f).host = s.host := rfl
@[simp] theorem State.modRegion_due (s : State) (k : Nat) (f : Region → Region) : (s.modRegion k f).due = s.due := rfl
@[simp] theorem State.modRegion_dce (s : State) (k : Nat) (f : Region → Region) : (s.modRegion k f).dce = s.dce := rfl
@[simp] theorem State.modRegion_live (s : State) (k : Nat) (f : Region → Region) : (s.modRegion k f).live = s.live := rfl
@[simp] theorem State.modRegion_bands (s : State) (k : Nat) (f : Region → Region) : (s.modRegion k f).bands = s.bands := rfl
@[simp] theorem State.modRegion_fids (s : State) (k : Nat) (f : Region → Region) : (s.modRegion k f).fids = s.fids := rfl
@[simp] theorem State.modRegion_lamps (s : State) (k : Nat) (f : Region → Region) : (s.modRegion k f).lamps = s.lamps := rfl
@[simp] theorem State.modRegion_faults (s : State) (k : Nat) (f : Region → Region) : (s.modRegion k f).faults = s.faults := rfl
@[simp] theorem State.modRegion_ports (s : State) (k : Nat) (f : Region → Region) : (s.modRegion k f).ports = s.ports := rfl
@[simp] theorem State.modRegion_mod_ (s : State) (k : Nat) (f : Region → Region) : (s.modRegion k f).mod_ = s.mod_ := rfl
@[simp] theorem State.modRegion_focus (s : State) (k : Nat) (f : Region → Region) : (s.modRegion k f).focus = s.focus := rfl
@[simp] theorem State.modRegion_slot (s : State) (k : Nat) (f : Region → Region) : (s.modRegion k f).slot = s.slot := rfl
@[simp] theorem State.modRegion_second (s : State) (k : Nat) (f : Region → Region) : (s.modRegion k f).second = s.second := rfl
@[simp] theorem State.modRegion_agenda (s : State) (k : Nat) (f : Region → Region) : (s.modRegion k f).agenda = s.agenda := rfl
@[simp] theorem State.modRegion_inputs (s : State) (k : Nat) (f : Region → Region) : (s.modRegion k f).inputs = s.inputs := rfl
@[simp] theorem State.modRegion_syncs (s : State) (k : Nat) (f : Region → Region) : (s.modRegion k f).syncs = s.syncs := rfl
@[simp] theorem State.modRegion_trap (s : State) (k : Nat) (f : Region → Region) : (s.modRegion k f).trap = s.trap := rfl
@[simp] theorem State.modRegion_imms (s : State) (k : Nat) (f : Region → Region) : (s.modRegion k f).imms = s.imms := rfl
@[simp] theorem State.modRegion_timing (s : State) (k : Nat) (f : Region → Region) : (s.modRegion k f).timing = s.timing := rfl
@[simp] theorem State.modRegion_evCycle (s : State) (k : Nat) (f : Region → Region) : (s.modRegion k f).evCycle = s.evCycle := rfl

/-! ## Updates of the agent that issues -/

@[simp] theorem State.modFocus_wcy (s : State) (f : Tile → Tile) : (s.modFocus f).wcy = s.wcy := by
  unfold State.modFocus; split <;> rfl
@[simp] theorem State.modFocus_regions (s : State) (f : Tile → Tile) : (s.modFocus f).regions = s.regions := by
  unfold State.modFocus; split <;> rfl
@[simp] theorem State.modFocus_launches (s : State) (f : Tile → Tile) : (s.modFocus f).launches = s.launches := by
  unfold State.modFocus; split <;> rfl
@[simp] theorem State.modFocus_lanterns (s : State) (f : Tile → Tile) : (s.modFocus f).lanterns = s.lanterns := by
  unfold State.modFocus; split <;> rfl
@[simp] theorem State.modFocus_queues (s : State) (f : Tile → Tile) : (s.modFocus f).queues = s.queues := by
  unfold State.modFocus; split <;> rfl
@[simp] theorem State.modFocus_events (s : State) (f : Tile → Tile) : (s.modFocus f).events = s.events := by
  unfold State.modFocus; split <;> rfl
@[simp] theorem State.modFocus_copies (s : State) (f : Tile → Tile) : (s.modFocus f).copies = s.copies := by
  unfold State.modFocus; split <;> rfl
@[simp] theorem State.modFocus_dram (s : State) (f : Tile → Tile) : (s.modFocus f).dram = s.dram := by
  unfold State.modFocus; split <;> rfl
@[simp] theorem State.modFocus_host (s : State) (f : Tile → Tile) : (s.modFocus f).host = s.host := by
  unfold State.modFocus; split <;> rfl
@[simp] theorem State.modFocus_due (s : State) (f : Tile → Tile) : (s.modFocus f).due = s.due := by
  unfold State.modFocus; split <;> rfl
@[simp] theorem State.modFocus_dce (s : State) (f : Tile → Tile) : (s.modFocus f).dce = s.dce := by
  unfold State.modFocus; split <;> rfl
@[simp] theorem State.modFocus_live (s : State) (f : Tile → Tile) : (s.modFocus f).live = s.live := by
  unfold State.modFocus; split <;> rfl
@[simp] theorem State.modFocus_bands (s : State) (f : Tile → Tile) : (s.modFocus f).bands = s.bands := by
  unfold State.modFocus; split <;> rfl
@[simp] theorem State.modFocus_fids (s : State) (f : Tile → Tile) : (s.modFocus f).fids = s.fids := by
  unfold State.modFocus; split <;> rfl
@[simp] theorem State.modFocus_lamps (s : State) (f : Tile → Tile) : (s.modFocus f).lamps = s.lamps := by
  unfold State.modFocus; split <;> rfl
@[simp] theorem State.modFocus_faults (s : State) (f : Tile → Tile) : (s.modFocus f).faults = s.faults := by
  unfold State.modFocus; split <;> rfl
@[simp] theorem State.modFocus_ports (s : State) (f : Tile → Tile) : (s.modFocus f).ports = s.ports := by
  unfold State.modFocus; split <;> rfl
@[simp] theorem State.modFocus_mod_ (s : State) (f : Tile → Tile) : (s.modFocus f).mod_ = s.mod_ := by
  unfold State.modFocus; split <;> rfl
@[simp] theorem State.modFocus_focus (s : State) (f : Tile → Tile) : (s.modFocus f).focus = s.focus := by
  unfold State.modFocus; split <;> rfl
@[simp] theorem State.modFocus_slot (s : State) (f : Tile → Tile) : (s.modFocus f).slot = s.slot := by
  unfold State.modFocus; split <;> rfl
@[simp] theorem State.modFocus_second (s : State) (f : Tile → Tile) : (s.modFocus f).second = s.second := by
  unfold State.modFocus; split <;> rfl
@[simp] theorem State.modFocus_agenda (s : State) (f : Tile → Tile) : (s.modFocus f).agenda = s.agenda := by
  unfold State.modFocus; split <;> rfl
@[simp] theorem State.modFocus_inputs (s : State) (f : Tile → Tile) : (s.modFocus f).inputs = s.inputs := by
  unfold State.modFocus; split <;> rfl
@[simp] theorem State.modFocus_syncs (s : State) (f : Tile → Tile) : (s.modFocus f).syncs = s.syncs := by
  unfold State.modFocus; split <;> rfl
@[simp] theorem State.modFocus_trap (s : State) (f : Tile → Tile) : (s.modFocus f).trap = s.trap := by
  unfold State.modFocus; split <;> rfl
@[simp] theorem State.modFocus_imms (s : State) (f : Tile → Tile) : (s.modFocus f).imms = s.imms := by
  unfold State.modFocus; split <;> rfl
@[simp] theorem State.modFocus_timing (s : State) (f : Tile → Tile) : (s.modFocus f).timing = s.timing := by
  unfold State.modFocus; split <;> rfl
@[simp] theorem State.modFocus_evCycle (s : State) (f : Tile → Tile) : (s.modFocus f).evCycle = s.evCycle := by
  unfold State.modFocus; split <;> rfl

@[simp] theorem State.modCore_wcy (s : State) (f : Core → Core) : (s.modCore f).wcy = s.wcy := by
  unfold State.modCore State.modCoreOf; split <;> rfl
@[simp] theorem State.modCore_regions (s : State) (f : Core → Core) : (s.modCore f).regions = s.regions := by
  unfold State.modCore State.modCoreOf; split <;> rfl
@[simp] theorem State.modCore_launches (s : State) (f : Core → Core) : (s.modCore f).launches = s.launches := by
  unfold State.modCore State.modCoreOf; split <;> rfl
@[simp] theorem State.modCore_queues (s : State) (f : Core → Core) : (s.modCore f).queues = s.queues := by
  unfold State.modCore State.modCoreOf; split <;> rfl
@[simp] theorem State.modCore_events (s : State) (f : Core → Core) : (s.modCore f).events = s.events := by
  unfold State.modCore State.modCoreOf; split <;> rfl
@[simp] theorem State.modCore_copies (s : State) (f : Core → Core) : (s.modCore f).copies = s.copies := by
  unfold State.modCore State.modCoreOf; split <;> rfl
@[simp] theorem State.modCore_dram (s : State) (f : Core → Core) : (s.modCore f).dram = s.dram := by
  unfold State.modCore State.modCoreOf; split <;> rfl
@[simp] theorem State.modCore_host (s : State) (f : Core → Core) : (s.modCore f).host = s.host := by
  unfold State.modCore State.modCoreOf; split <;> rfl
@[simp] theorem State.modCore_due (s : State) (f : Core → Core) : (s.modCore f).due = s.due := by
  unfold State.modCore State.modCoreOf; split <;> rfl
@[simp] theorem State.modCore_dce (s : State) (f : Core → Core) : (s.modCore f).dce = s.dce := by
  unfold State.modCore State.modCoreOf; split <;> rfl
@[simp] theorem State.modCore_live (s : State) (f : Core → Core) : (s.modCore f).live = s.live := by
  unfold State.modCore State.modCoreOf; split <;> rfl
@[simp] theorem State.modCore_bands (s : State) (f : Core → Core) : (s.modCore f).bands = s.bands := by
  unfold State.modCore State.modCoreOf; split <;> rfl
@[simp] theorem State.modCore_fids (s : State) (f : Core → Core) : (s.modCore f).fids = s.fids := by
  unfold State.modCore State.modCoreOf; split <;> rfl
@[simp] theorem State.modCore_lamps (s : State) (f : Core → Core) : (s.modCore f).lamps = s.lamps := by
  unfold State.modCore State.modCoreOf; split <;> rfl
@[simp] theorem State.modCore_faults (s : State) (f : Core → Core) : (s.modCore f).faults = s.faults := by
  unfold State.modCore State.modCoreOf; split <;> rfl
@[simp] theorem State.modCore_ports (s : State) (f : Core → Core) : (s.modCore f).ports = s.ports := by
  unfold State.modCore State.modCoreOf; split <;> rfl
@[simp] theorem State.modCore_mod_ (s : State) (f : Core → Core) : (s.modCore f).mod_ = s.mod_ := by
  unfold State.modCore State.modCoreOf; split <;> rfl
@[simp] theorem State.modCore_focus (s : State) (f : Core → Core) : (s.modCore f).focus = s.focus := by
  unfold State.modCore State.modCoreOf; split <;> rfl
@[simp] theorem State.modCore_slot (s : State) (f : Core → Core) : (s.modCore f).slot = s.slot := by
  unfold State.modCore State.modCoreOf; split <;> rfl
@[simp] theorem State.modCore_second (s : State) (f : Core → Core) : (s.modCore f).second = s.second := by
  unfold State.modCore State.modCoreOf; split <;> rfl
@[simp] theorem State.modCore_agenda (s : State) (f : Core → Core) : (s.modCore f).agenda = s.agenda := by
  unfold State.modCore State.modCoreOf; split <;> rfl
@[simp] theorem State.modCore_inputs (s : State) (f : Core → Core) : (s.modCore f).inputs = s.inputs := by
  unfold State.modCore State.modCoreOf; split <;> rfl
@[simp] theorem State.modCore_syncs (s : State) (f : Core → Core) : (s.modCore f).syncs = s.syncs := by
  unfold State.modCore State.modCoreOf; split <;> rfl
@[simp] theorem State.modCore_trap (s : State) (f : Core → Core) : (s.modCore f).trap = s.trap := by
  unfold State.modCore State.modCoreOf; split <;> rfl
@[simp] theorem State.modCore_imms (s : State) (f : Core → Core) : (s.modCore f).imms = s.imms := by
  unfold State.modCore State.modCoreOf; split <;> rfl
@[simp] theorem State.modCore_timing (s : State) (f : Core → Core) : (s.modCore f).timing = s.timing := by
  unfold State.modCore State.modCoreOf; split <;> rfl
@[simp] theorem State.modCore_evCycle (s : State) (f : Core → Core) : (s.modCore f).evCycle = s.evCycle := by
  unfold State.modCore State.modCoreOf; split <;> rfl

/-! ## Counts of memory words (R349) and registers that work (R397) -/

@[simp] theorem State.counted_tiles (s u : State) : (s.counted u).tiles = s.tiles := rfl
@[simp] theorem State.counted_wcy (s u : State) : (s.counted u).wcy = s.wcy := rfl
@[simp] theorem State.counted_regions (s u : State) : (s.counted u).regions = s.regions := rfl
@[simp] theorem State.counted_launches (s u : State) : (s.counted u).launches = s.launches := rfl
@[simp] theorem State.counted_lanterns (s u : State) : (s.counted u).lanterns = s.lanterns := rfl
@[simp] theorem State.counted_queues (s u : State) : (s.counted u).queues = s.queues := rfl
@[simp] theorem State.counted_events (s u : State) : (s.counted u).events = s.events := rfl
@[simp] theorem State.counted_copies (s u : State) : (s.counted u).copies = s.copies := rfl
@[simp] theorem State.counted_dram (s u : State) : (s.counted u).dram = s.dram := rfl
@[simp] theorem State.counted_host (s u : State) : (s.counted u).host = s.host := rfl
@[simp] theorem State.counted_live (s u : State) : (s.counted u).live = s.live := rfl
@[simp] theorem State.counted_bands (s u : State) : (s.counted u).bands = s.bands := rfl
@[simp] theorem State.counted_fids (s u : State) : (s.counted u).fids = s.fids := rfl
@[simp] theorem State.counted_lamps (s u : State) : (s.counted u).lamps = s.lamps := rfl
@[simp] theorem State.counted_faults (s u : State) : (s.counted u).faults = s.faults := rfl
@[simp] theorem State.counted_ports (s u : State) : (s.counted u).ports = s.ports := rfl
@[simp] theorem State.counted_mod_ (s u : State) : (s.counted u).mod_ = s.mod_ := rfl
@[simp] theorem State.counted_focus (s u : State) : (s.counted u).focus = s.focus := rfl
@[simp] theorem State.counted_slot (s u : State) : (s.counted u).slot = s.slot := rfl
@[simp] theorem State.counted_second (s u : State) : (s.counted u).second = s.second := rfl
@[simp] theorem State.counted_agenda (s u : State) : (s.counted u).agenda = s.agenda := rfl
@[simp] theorem State.counted_inputs (s u : State) : (s.counted u).inputs = s.inputs := rfl
@[simp] theorem State.counted_syncs (s u : State) : (s.counted u).syncs = s.syncs := rfl
@[simp] theorem State.counted_trap (s u : State) : (s.counted u).trap = s.trap := rfl
@[simp] theorem State.counted_imms (s u : State) : (s.counted u).imms = s.imms := rfl
@[simp] theorem State.counted_timing (s u : State) : (s.counted u).timing = s.timing := rfl
@[simp] theorem State.counted_evCycle (s u : State) : (s.counted u).evCycle = s.evCycle := rfl
@[simp] theorem State.counted_due (s u : State) : (s.counted u).due = u.due := rfl
@[simp] theorem State.counted_dce (s u : State) : (s.counted u).dce = u.dce := rfl

theorem State.atReg_works (s : State) (off : Nat) (f : State → State) (h : s.ctlWorks off = true) : s.atReg off f = f s := by
  simp [State.atReg, h]
theorem State.atReg_dead (s : State) (off : Nat) (f : State → State) (h : s.ctlWorks off = false) : s.atReg off f = s := by
  simp [State.atReg, h]
theorem State.ctlWorks_of_feat (s : State) (off : Nat) (h : s.mod_.feat ≠ 0) : s.ctlWorks off = true := by
  rw [State.ctlWorks, bne_iff_ne.2 h]; rfl

/-! ## Writes of one visibility cycle (R189) -/

@[simp] theorem settleWrites_nil : settleWrites [] = ([], []) := rfl
@[simp] theorem settleWrites_single (w : PWrite) : settleWrites [w] = ([w], []) := by simp [settleWrites, insertAsc]

end Sys2Proof.Machine
end

