-- ==== Sys2Proof/Laws/Issue.lean ====
section
/-! SUPPORT. What the issue of a slot can do: the state in which its effect takes place, and what the checks end in. -/

namespace Sys2Proof.Machine

/-! ## The agent that issues -/

@[simp] theorem list_modify_modify {α : Type} (l : List α) (i : Nat) (f g : α → α) :
    (l.modify i f).modify i g = l.modify i (g ∘ f) := by
  apply List.ext_getElem?; intro j
  simp only [List.getElem?_modify]
  by_cases h : i = j <;> simp [h, Function.comp_def]

theorem State.modTile_modTile (s : State) (i : Nat) (f g : Tile → Tile) :
    (s.modTile i f).modTile i g = s.modTile i (g ∘ f) := by
  simp [State.modTile]

@[simp] theorem State.tile?_modTile (s : State) (i : Nat) (f : Tile → Tile) :
    (s.modTile i f).tile? i = (s.tile? i).map f := by
  simp [State.tile?, State.modTile]

@[simp] theorem State.lanterns_modLantern (s : State) (n : Fin 4) (f : Lantern → Lantern) :
    (s.modLantern n f).lanterns.get n = f (s.lanterns.get n) := by
  simp [State.modLantern, Vector.get_eq_getElem]

theorem State.modLantern_modLantern (s : State) (n : Fin 4) (f g : Lantern → Lantern) :
    (s.modLantern n f).modLantern n g = s.modLantern n (g ∘ f) := by
  unfold State.modLantern
  simp [Vector.get_eq_getElem]

theorem State.modFocus_tile {s : State} {i : Nat} (h : s.focus = .tile i) (f : Tile → Tile) :
    s.modFocus f = s.modTile i f := by
  unfold State.modFocus; rw [h]

theorem State.modFocus_lantern {s : State} {n : Fin 4} (h : s.focus = .lantern n) (f : Tile → Tile) :
    s.modFocus f = s := by
  unfold State.modFocus; rw [h]

theorem State.modCore_tile {s : State} {i : Nat} (h : s.focus = .tile i) (f : Core → Core) :
    s.modCore f = s.modTile i (Tile.onCore f) := by
  unfold State.modCore State.modCoreOf; rw [h]

theorem State.modCore_lantern {s : State} {n : Fin 4} (h : s.focus = .lantern n) (f : Core → Core) :
    s.modCore f = s.modLantern n (Lantern.onCore f) := by
  unfold State.modCore State.modCoreOf; rw [h]

theorem Tile.onCore_comp (f g : Core → Core) : Tile.onCore g ∘ Tile.onCore f = Tile.onCore (g ∘ f) := rfl
theorem Lantern.onCore_comp (f g : Core → Core) : Lantern.onCore g ∘ Lantern.onCore f = Lantern.onCore (g ∘ f) := rfl

@[simp] theorem State.modFocus_modFocus (s : State) (f g : Tile → Tile) :
    (s.modFocus f).modFocus g = s.modFocus (g ∘ f) := by
  cases h : s.focus with
  | tile i =>
    have h' : (s.modFocus f).focus = .tile i := by rw [State.modFocus_focus, h]
    rw [State.modFocus_tile h', State.modFocus_tile h, State.modFocus_tile h, State.modTile_modTile]
  | lantern n =>
    have h' : (s.modFocus f).focus = .lantern n := by rw [State.modFocus_focus, h]
    rw [State.modFocus_lantern h', State.modFocus_lantern h, State.modFocus_lantern h]

@[simp] theorem State.modCore_modCore (s : State) (f g : Core → Core) :
    (s.modCore f).modCore g = s.modCore (g ∘ f) := by
  cases h : s.focus with
  | tile i =>
    have h' : (s.modCore f).focus = .tile i := by rw [State.modCore_focus, h]
    rw [State.modCore_tile h', State.modCore_tile h, State.modCore_tile h, State.modTile_modTile, Tile.onCore_comp]
  | lantern n =>
    have h' : (s.modCore f).focus = .lantern n := by rw [State.modCore_focus, h]
    rw [State.modCore_lantern h', State.modCore_lantern h, State.modCore_lantern h, State.modLantern_modLantern,
      Lantern.onCore_comp]

/-- A change of the tile and one of its core commute where each leaves the other's part alone. -/
theorem State.modFocus_modCore (s : State) (f : Tile → Tile) (g : Core → Core)
    (hf : ∀ t : Tile, f (Tile.onCore g t) = Tile.onCore g (f t)) :
    (s.modFocus f).modCore g = (s.modCore g).modFocus f := by
  cases k : s.focus with
  | tile i =>
    have h1 : (s.modFocus f).focus = .tile i := by rw [State.modFocus_focus, k]
    have h2 : (s.modCore g).focus = .tile i := by rw [State.modCore_focus, k]
    rw [State.modCore_tile h1, State.modFocus_tile k, State.modFocus_tile h2, State.modCore_tile k,
      State.modTile_modTile, State.modTile_modTile]
    congr 1; funext t; exact (hf t).symm
  | lantern n =>
    have h1 : (s.modFocus f).focus = .lantern n := by rw [State.modFocus_focus, k]
    have h2 : (s.modCore g).focus = .lantern n := by rw [State.modCore_focus, k]
    rw [State.modFocus_lantern k, State.modFocus_lantern h2]

/-- The tile that issues, after a change of it. -/
@[simp] theorem State.focusTile?_modFocus (s : State) (f : Tile → Tile) :
    (s.modFocus f).focusTile? = s.focusTile?.map f := by
  cases h : s.focus with
  | tile i =>
    have h' : (s.modFocus f).focus = .tile i := by rw [State.modFocus_focus, h]
    unfold State.focusTile?; rw [h', h]; simp [State.modFocus_tile h]
  | lantern n =>
    have h' : (s.modFocus f).focus = .lantern n := by rw [State.modFocus_focus, h]
    unfold State.focusTile?; rw [h', h]; rfl

@[simp] theorem State.focusTile?_modCore (s : State) (f : Core → Core) :
    (s.modCore f).focusTile? = s.focusTile?.map (Tile.onCore f) := by
  cases h : s.focus with
  | tile i =>
    have h' : (s.modCore f).focus = .tile i := by rw [State.modCore_focus, h]
    unfold State.focusTile?; rw [h', h]; simp [State.modCore_tile h]
  | lantern n =>
    have h' : (s.modCore f).focus = .lantern n := by rw [State.modCore_focus, h]
    unfold State.focusTile?; rw [h', h]; rfl

/-- The core of the agent that issues, after a change of it. -/
@[simp] theorem State.coreOf_modCore (s : State) (f : Core → Core) :
    (s.modCore f).coreOf s.focus = (s.coreOf s.focus).map f := by
  cases h : s.focus with
  | tile i => simp [State.modCore_tile h, State.coreOf, Function.comp_def, Tile.onCore]
  | lantern n => simp [State.modCore_lantern h, State.coreOf, Lantern.onCore]

theorem State.coreOf_modFocus (s : State) (f : Tile → Tile) (h : ∀ t, (f t).core = t.core) :
    (s.modFocus f).coreOf s.focus = s.coreOf s.focus := by
  cases k : s.focus with
  | tile i => simp [State.modFocus_tile k, State.coreOf, Function.comp_def, h]
  | lantern n => simp [State.modFocus_lantern k]

/-- The cycle counts that the issuing agent sees stay as they are. -/
theorem State.env_modFocus (s : State) (f : Tile → Tile)
    (h : ∀ t, (f t).region = t.region ∧ (f t).cluster = t.cluster) : (s.modFocus f).env = s.env := by
  unfold State.env
  rw [State.modFocus_focus]
  cases k : s.focus with
  | tile i =>
    simp only [State.envOf, State.modFocus_tile k, State.tile?_modTile]
    cases s.tile? i with
    | none => rfl
    | some t => simp [State.tileEnv, State.cluster, State.region?, (h t).1, (h t).2]
  | lantern n => rw [State.modFocus_lantern k]

@[simp] theorem State.env_modCore (s : State) (f : Core → Core) : (s.modCore f).env = s.env := by
  unfold State.env
  rw [State.modCore_focus]
  cases k : s.focus with
  | tile i =>
    simp only [State.envOf, State.modCore_tile k, State.tile?_modTile]
    cases s.tile? i with
    | none => rfl
    | some t => simp [State.tileEnv, State.cluster, State.region?, Tile.onCore]
  | lantern n => simp [State.envOf, State.modCore_lantern k, Lantern.onCore, Lantern.env]

/-! ## The recorder -/

/-- A tile with another recorder, and with another recorder and tape. -/
def Tile.retape (r : Tile → Recorder) (t : Tile) : Tile := { t with rec_ := r t }

theorem Tile.invalidateTape_eq (t : Tile) (n c a : Nat) :
    t.invalidateTape n c a = { t with rec_ := (t.invalidateTape n c a).rec_ } := by
  unfold Tile.invalidateTape; split <;> rfl

theorem State.invalidate_eq (s : State) (r : Nat) (c : Core) :
    ∃ ρ, s.invalidate r c = s.modFocus (Tile.retape ρ) := by
  refine ⟨fun t => (if t.recording then t.invalidateTape r s.env.scy (s.slotAddr c) else t).rec_, ?_⟩
  unfold State.invalidate
  congr 1; funext t
  by_cases h : t.recording = true
  · simp only [h, if_true, Tile.retape]; exact Tile.invalidateTape_eq ..
  · simp only [h, Tile.retape]; rfl

theorem Tile.retape_retape (ρ σ : Tile → Recorder) :
    Tile.retape σ ∘ Tile.retape ρ = Tile.retape fun t => σ (Tile.retape ρ t) := rfl

theorem State.modFocus_id (s : State) : s.modFocus (Tile.retape (·.rec_)) = s := by
  cases h : s.focus with
  | tile i =>
    have e : (Tile.retape (·.rec_)) = id := rfl
    rw [State.modFocus_tile h, e, State.modTile]; simp
  | lantern n => rw [State.modFocus_lantern h]

theorem State.noteIf_eq (s : State) (b : Bool) (r : Option Nat) (c : Core) :
    ∃ ρ, s.noteIf b r c = s.modFocus (Tile.retape ρ) := by
  unfold State.noteIf
  split
  · split
    · exact State.invalidate_eq ..
    · exact ⟨_, (State.modFocus_id s).symm⟩
  · exact ⟨_, (State.modFocus_id s).symm⟩

theorem Tile.untape_retape (ρ : Tile → Recorder) : Tile.untape ∘ Tile.retape ρ = Tile.untape := rfl

theorem Tile.setTaperWord_eq (t : Tile) (k v : Nat) : (t.setTaperWord k v).untape = t.untape := rfl

theorem Tile.untape_fold (ws : List Nat) (x : Tile × Nat) :
    (ws.foldl (fun (x : Tile × Nat) w => (x.1.setTaperWord x.2 w, x.2 + 1)) x).1.untape = x.1.untape := by
  induction ws generalizing x with
  | nil => rfl
  | cons w ws ih => simp [ih, Tile.setTaperWord_eq]

theorem Tile.untape_congr {t u : Tile} (r : Recorder) (h : t.untape = u.untape) :
    ({ t with rec_ := r } : Tile).untape = u.untape := h

@[simp] theorem Tile.untape_invalidateTape (t : Tile) (n c a : Nat) : (t.invalidateTape n c a).untape = t.untape := by
  rw [Tile.invalidateTape_eq]; rfl

@[simp] theorem Tile.untape_emitWords (t : Tile) (c : Stamp) (ws : List Nat) : (t.emitWords c ws).untape = t.untape := by
  unfold Tile.emitWords
  split
  · rfl
  · split
    · simp
    · exact Tile.untape_congr _ (Tile.untape_fold ws _)

@[simp] theorem Tile.untape_emitRec (t : Tile) (c : Stamp) (x : TRec) : (t.emitRec c x).untape = t.untape := by
  cases x with
  | cmd a k w => exact Tile.untape_congr _ (Tile.untape_emitWords ..)
  | imm v => exact Tile.untape_emitWords ..

@[simp] theorem Tile.untape_emitRecs (t : Tile) (c : Stamp) (xs : List TRec) : (t.emitRecs c xs).untape = t.untape := by
  unfold Tile.emitRecs
  induction xs generalizing t with
  | nil => rfl
  | cons x xs ih => simp [ih]

@[simp] theorem Tile.untape_flushRep (t : Tile) (c : Stamp) : (t.flushRep c).untape = t.untape := by
  unfold Tile.flushRep
  split
  · rfl
  · exact Tile.untape_congr _ (Tile.untape_emitWords ..)

@[simp] theorem Tile.untape_record (t : Tile) (a : Stamp) (k : Nat) (w : BitVec 32) (vs : List Word) :
    (t.record a k w vs).untape = t.untape := by
  unfold Tile.record
  dsimp only
  split
  · rfl
  · split
    · simp
    · split
      · rw [Tile.untape_emitRecs]; rfl
      · split
        · rfl
        · rw [Tile.untape_emitRecs]; exact Tile.untape_congr _ (Tile.untape_flushRep t a)

@[simp] theorem Tile.untape_noteWrites (t : Tile) (ds : List SOp) : (t.noteWrites ds).untape = t.untape := by
  unfold Tile.noteWrites; split <;> rfl

@[simp] theorem Tile.untape_notePair (t : Tile) (k : Fin 8) : (t.notePair k).untape = t.untape := by
  unfold Tile.notePair; split <;> rfl

/-- A change of the issuing tile that only its recorder and tape show. -/
theorem State.untaped_modFocus (s : State) (f : Tile → Tile) (h : ∀ t, (f t).untape = t.untape) :
    (s.modFocus f).untaped = s.untaped := by
  unfold State.untaped
  rw [State.modFocus_modFocus]
  congr 1; funext t; exact h t

/-! ## The issue of a slot -/

theorem sourceValues_seq (c : Core) (n : Nat) (vs : Option (List Word)) (ds : List (SOp × Bool)) :
    sourceValues { c with seq := n } vs ds = sourceValues c vs ds := by
  unfold sourceValues
  cases vs <;> rfl

theorem poisonedControl_clean (ds : List (SOp × Bool)) (vs : List SReg)
    (h : ∀ (n : Nat) (d : SOp) (v : SReg), ds[n]? = some (d, true) → vs[n]? = some v → v.poison = false) :
    poisonedControl ds vs = none := by
  induction ds generalizing vs with
  | nil => unfold poisonedControl; rfl
  | cons x ds ih =>
    obtain ⟨d, b⟩ := x
    cases vs with
    | nil => rfl
    | cons v vs =>
      have h0 : (b && v.poison) = false := by
        cases b with
        | false => rfl
        | true => simpa using h 0 d v rfl rfl
      simp only [poisonedControl, h0]
      exact ih vs fun n d w hd hw => h (n + 1) d w hd hw

/-- The control sources of a form. -/
def Use.control (u : Use) : List SOp := (u.srcs.filter (·.2)).map (·.1)
def Use.named (u : Use) : List SOp := u.srcs.map (·.1) ++ u.dsts

theorem sourceValues_clean {s : State} {c : Core} {u : Use} (h : s.cleanControl c u.control) :
    poisonedControl u.srcs (sourceValues c s.imms u.srcs) = none := by
  apply poisonedControl_clean
  intro n d v hd hv
  unfold sourceValues at hv
  cases hi : s.imms with
  | none =>
    simp only [hi, List.getElem?_map, hd, Option.map_some, Option.some.injEq] at hv
    rw [← hv]
    refine h hi d ?_
    exact List.mem_map.2 ⟨(d, true), List.mem_filter.2 ⟨List.mem_of_getElem? hd, rfl⟩, rfl⟩
  | some vs =>
    simp only [hi, List.getElem?_map] at hv
    cases hr : (List.range u.srcs.length)[n]? with
    | none => simp [hr] at hv
    | some k => simp [hr] at hv; rw [← hv]

theorem State.badBank_none {s : State} {ds : List SOp} (h : s.banksOn ds) : s.badBank ds = none := by
  unfold State.badBank
  split
  · rfl
  · rename_i t ht
    exact List.find?_eq_none.2 fun d hd => by simp [h t ht d hd]

/-- A slot that issues: its effect takes place on the sources' values, in the state in which the slot counts as issued
and the tape may have been invalidated; what it records beside shows only on the tape. -/
theorem issue_next {u : Use} {s : State} {c : Core} (hc : s.coreOf s.focus = some c) (hl : c.suppressed = false)
    (ho : u.only.any (· != agentKind s.focus) = false) (hg : ∀ g, u.guard = some g → s.passes c g)
    (hb : s.banksOn u.named) (hp : s.cleanControl c u.control) :
    ∃ ρ, ∀ body s3, body (sourceValues c s.imms u.srcs) (s.begun.modFocus (Tile.retape ρ)) = .ok s3 →
      ∃ t, issue u s body = .next t ∧ t.untaped = s3.untaped := by
  -- the body of an issue, in a state that differs by the recorder
  have inner : ∀ ρ₀, ∃ ρ, ∀ body s3,
      body (sourceValues c s.imms u.srcs) (s.begun.modFocus (Tile.retape ρ)) = .ok s3 →
      ∃ t, issueBody u s.second (s.begun.modFocus (Tile.retape ρ₀)) { c with seq := c.seq + 1 } body = .next t ∧
        t.untaped = s3.untaped := by
    intro ρ₀
    have hbank : (s.begun.modFocus (Tile.retape ρ₀)).badBank (u.srcs.map (·.1) ++ u.dsts) = none := by
      apply State.badBank_none
      intro t ht d hd
      rw [State.focusTile?_modFocus] at ht
      unfold State.begun at ht
      rw [State.focusTile?_modCore] at ht
      cases hf : s.focusTile? with
      | none => simp [hf] at ht
      | some t0 =>
        simp only [hf, Option.map_some, Option.some.injEq] at ht
        rw [← ht]
        exact hb t0 hf d hd
    have himm : (s.begun.modFocus (Tile.retape ρ₀)).imms = s.imms := by simp [State.begun]
    have hpc : poisonedControl u.srcs (sourceValues c s.imms u.srcs) = none := sourceValues_clean hp
    obtain ⟨ρ₁, h₁⟩ := State.noteIf_eq (s.begun.modFocus (Tile.retape ρ₀)) ((sourceValues c s.imms u.srcs).any (·.taint))
      u.srcReason { c with seq := c.seq + 1 }
    obtain ⟨ρ₂, h₂⟩ := State.noteIf_eq ((s.begun.modFocus (Tile.retape ρ₀)).modFocus (Tile.retape ρ₁)) true u.always
      { c with seq := c.seq + 1 }
    rw [State.modFocus_modFocus, State.modFocus_modFocus, Tile.retape_retape, Tile.retape_retape] at h₂
    rw [State.modFocus_modFocus, Tile.retape_retape] at h₁
    refine ⟨fun t => ρ₂ (Tile.retape (fun t => ρ₁ (Tile.retape ρ₀ t)) t), fun body s3 h3 => ?_⟩
    unfold issueBody
    simp only [hbank, himm, sourceValues_seq, hpc, h₁, h₂, h3]
    refine ⟨_, rfl, ?_⟩
    split
    · exact State.untaped_modFocus _ _ fun t => Tile.untape_record ..
    · rfl
  have hfocus : s.begun.focus = s.focus := State.modCore_focus ..
  have himm : s.begun.imms = s.imms := State.modCore_imms ..
  have hid : s.begun.modFocus (Tile.retape (·.rec_)) = s.begun := State.modFocus_id _
  -- what follows the choice of the state that the checks meet
  have enter : ∀ ρ₀, (∀ body, issue u s body =
      issueBody u s.second (s.begun.modFocus (Tile.retape ρ₀)) { c with seq := c.seq + 1 } body) →
      ∃ ρ, ∀ body s3, body (sourceValues c s.imms u.srcs) (s.begun.modFocus (Tile.retape ρ)) = .ok s3 →
        ∃ t, issue u s body = .next t ∧ t.untaped = s3.untaped := by
    intro ρ₀ he
    obtain ⟨ρ, h⟩ := inner ρ₀
    exact ⟨ρ, fun body s3 h3 => by rw [he]; exact h body s3 h3⟩
  cases hgd : u.guard with
  | none =>
    refine enter (·.rec_) fun body => ?_
    rw [hid]
    unfold issue
    rw [hc]
    dsimp only
    rw [hl, State.modCore_focus, ho, hgd]
    rfl
  | some g =>
    cases hi : s.imms with
    | some vs =>
      rw [← hi]
      refine enter (·.rec_) fun body => ?_
      rw [hid]
      unfold issue
      rw [hc]
      dsimp only
      rw [hl, State.modCore_focus, ho, hgd, State.modCore_imms, hi]
      rfl
    | none =>
      obtain ⟨hv, hpz⟩ := hg g hgd hi
      have hv' : (({ c with seq := c.seq + 1 } : Core).readQ g).val = true := hv
      have hp' : (({ c with seq := c.seq + 1 } : Core).readQ g).poison = false := hpz
      obtain ⟨ρ₀, h₀⟩ := State.noteIf_eq s.begun (({ c with seq := c.seq + 1 } : Core).readQ g).taint (some u.guardReason)
        { c with seq := c.seq + 1 }
      rw [← hi]
      refine enter ρ₀ fun body => ?_
      rw [← h₀]
      unfold issue
      rw [hc]
      dsimp only
      rw [hl, State.modCore_focus, ho, hgd, State.modCore_imms, hi]
      dsimp only
      rw [hp', hv']
      rfl

end Sys2Proof.Machine
end

