-- ==== Sys2Proof/Laws/Results.lean ====
section
/-! SUPPORT. How results of a slot are queued for their landing, in the terms of the statements. -/

namespace Sys2Proof.Machine

/-- The cycle counts in the state in which a slot takes effect. -/
@[simp] theorem State.env_entered (s : State) (ρ : Tile → Recorder) :
    (s.begun.modFocus (Tile.retape ρ)).env = s.env := by
  rw [State.env_modFocus s.begun (Tile.retape ρ) fun t => ⟨rfl, rfl⟩]
  exact State.env_modCore ..

@[simp] theorem State.focus_entered (s : State) (ρ : Tile → Recorder) :
    (s.begun.modFocus (Tile.retape ρ)).focus = s.focus := by
  rw [State.modFocus_focus]; exact State.modCore_focus ..

/-- The core of the agent in the state in which a slot takes effect. -/
theorem State.core_entered {s : State} {c : Core} (h : s.coreOf s.focus = some c) (ρ : Tile → Recorder) :
    (s.begun.modFocus (Tile.retape ρ)).coreOf (s.begun.modFocus (Tile.retape ρ)).focus =
      some { c with seq := c.seq + 1 } := by
  have hf : s.begun.focus = s.focus := State.modCore_focus ..
  rw [State.modFocus_focus, State.coreOf_modFocus s.begun (Tile.retape ρ) fun _ => rfl, hf]
  unfold State.begun
  rw [State.coreOf_modCore, h]; rfl

/-- The tile in that state. -/
theorem State.tile_entered {s : State} {t : Tile} (h : s.focusTile? = some t) (ρ : Tile → Recorder) :
    (s.begun.modFocus (Tile.retape ρ)).focusTile? =
      some (Tile.retape ρ (Tile.onCore (fun c => { c with seq := c.seq + 1 }) t)) := by
  rw [State.focusTile?_modFocus]
  unfold State.begun
  rw [State.focusTile?_modCore, h]; rfl

/-- What a slot fetched from, and its own place, are the same in that state. -/
@[simp] theorem State.codeOf_entered (s : State) (ρ : Tile → Recorder) :
    (s.begun.modFocus (Tile.retape ρ)).codeOf s.focus = s.codeOf s.focus := by
  cases h : s.focus with
  | tile i =>
    have h1 : s.begun.focus = .tile i := by rw [← h]; exact State.modCore_focus ..
    rw [State.modFocus_tile h1]
    unfold State.begun State.codeOf
    rw [State.modCore_tile h]
    simp only [State.tile?_modTile]
    cases s.tile? i <;> rfl
  | lantern n =>
    have h1 : s.begun.focus = .lantern n := by rw [← h]; exact State.modCore_focus ..
    rw [State.modFocus_lantern h1]
    unfold State.begun State.codeOf
    rw [State.modCore_lantern h]
    simp [Lantern.onCore]

@[simp] theorem State.slot_entered (s : State) (ρ : Tile → Recorder) :
    (s.begun.modFocus (Tile.retape ρ)).slot = s.slot := by
  rw [State.modFocus_slot]; exact State.modCore_slot ..

@[simp] theorem State.imms_entered (s : State) (ρ : Tile → Recorder) :
    (s.begun.modFocus (Tile.retape ρ)).imms = s.imms := by
  rw [State.modFocus_imms]; exact State.modCore_imms ..

/-- A change of the core in that state, the recorder left out. -/
theorem State.untaped_modCore (s : State) (ρ : Tile → Recorder) (f : Core → Core) :
    ((s.begun.modFocus (Tile.retape ρ)).modCore f).untaped =
      (s.modCore fun c => f { c with seq := c.seq + 1 }).untaped := by
  rw [State.untaped, State.untaped]
  cases h : s.focus with
  | tile i =>
    have h1 : s.begun.focus = .tile i := by rw [← h]; exact State.modCore_focus ..
    have h2 : (s.begun.modFocus (Tile.retape ρ)).focus = .tile i := by rw [State.modFocus_focus, h1]
    have h3 : ((s.begun.modFocus (Tile.retape ρ)).modCore f).focus = .tile i := by rw [State.modCore_focus, h2]
    have h4 : ∀ f, (s.modCore f).focus = .tile i := fun f => by rw [State.modCore_focus, h]
    rw [State.modFocus_tile h3, State.modCore_tile h2, State.modFocus_tile h1, State.modFocus_tile (h4 _),
      State.modCore_tile h]
    unfold State.begun
    rw [State.modCore_tile h]
    simp only [State.modTile_modTile]
    rfl
  | lantern n =>
    have h1 : s.begun.focus = .lantern n := by rw [← h]; exact State.modCore_focus ..
    have h3 : ((s.begun.modFocus (Tile.retape ρ)).modCore f).focus = .lantern n := by
      rw [State.modCore_focus, State.modFocus_focus, h1]
    have h4 : ∀ f, (s.modCore f).focus = .lantern n := fun f => by rw [State.modCore_focus, h]
    rw [State.modFocus_lantern h3, State.modFocus_lantern h1, State.modFocus_lantern (h4 _)]
    unfold State.begun
    rw [State.modCore_modCore]; rfl

/-- An S result (R93, R99). -/
theorem State.landS_untaped (s : State) (ρ : Tile → Recorder) (d : SOp) (v : Word) (a p : Bool) (lo ls : Nat) :
    ((s.begun.modFocus (Tile.retape ρ)).landS d v a p lo ls).untaped = (s.result d ⟨v, a, p⟩ lo ls).untaped := by
  unfold State.landS
  rw [State.untaped_modFocus _ _ fun t => Tile.untape_noteWrites .., State.untaped_modCore]
  congr 1
  unfold State.result State.lands
  congr 1; funext c
  simp only [State.env_entered]
  cases d <;> simp [Core.wr, Core.land, Core.busy, latTo]

/-- A target that lands in a b register, and a predicate pair (R99, R120, R126). -/
theorem State.landB_untaped (s : State) (ρ : Tile → Recorder) (n : Fin 4) (v : BitVec 32) :
    ((s.begun.modFocus (Tile.retape ρ)).landB n v).untaped =
      (s.lands (s.env.ctl + 1) [(1, .breg n v)]).untaped := by
  unfold State.landB
  rw [State.untaped_modCore]
  simp [State.lands, Core.land, Core.busy]

theorem State.landPair_untaped (s : State) (ρ : Tile → Recorder) (k : Fin 8) (v a p : Bool) :
    ((s.begun.modFocus (Tile.retape ρ)).landPair k v a p).untaped =
      (s.lands (s.env.ctl + 1) [(1, .pair k ⟨v, a, p⟩)]).untaped := by
  unfold State.landPair
  rw [State.untaped_modFocus _ _ fun t => Tile.untape_notePair .., State.untaped_modCore]
  simp [State.lands, Core.land, Core.busy]

/-- What completes: a slot whose effect, in each state that differs from the issue's by the recorder, is the one given. -/
theorem issue_completes {i : Instr} {u : Use} {s r : State} {c : Core} {body : List SReg → State → Except Trap State}
    (hx : exec i s = issue u s body) (hc : s.coreOf s.focus = some c) (hl : c.suppressed = false)
    (ho : u.only.any (· != agentKind s.focus) = false) (hg : ∀ g, u.guard = some g → s.passes c g)
    (hb : s.banksOn u.named) (hp : s.cleanControl c u.control)
    (he : ∀ ρ, ∃ s3, body (sourceValues c s.imms u.srcs) (s.begun.modFocus (Tile.retape ρ)) = .ok s3 ∧
      s3.untaped = r.untaped) : Completes i s r := by
  obtain ⟨ρ, hn⟩ := issue_next hc hl ho hg hb hp
  obtain ⟨s3, h3, hr⟩ := he ρ
  obtain ⟨t, ht, hu⟩ := hn body s3 h3
  exact ⟨t, hx.trans ht, hu.trans hr⟩

/-- The same for a form that both kinds of core run, with its hypotheses gathered. -/
theorem Issues.completes {i : Instr} {u : Use} {s r : State} {c : Core} {g : Guard} {named control : List SOp}
    {body : List SReg → State → Except Trap State} (h : Issues s c g named control)
    (hx : exec i s = issue u s body) (ho : u.only = none) (hg : u.guard = some g) (hn : u.named = named)
    (hk : u.control = control)
    (he : ∀ ρ, ∃ s3, body (sourceValues c s.imms u.srcs) (s.begun.modFocus (Tile.retape ρ)) = .ok s3 ∧
      s3.untaped = r.untaped) : Completes i s r :=
  issue_completes hx h.core h.live (by rw [ho]; rfl)
    (fun g' e => by rw [hg] at e; obtain rfl := Option.some.inj e; exact h.guard)
    (by rw [hn]; exact h.banks) (by rw [hk]; exact h.clean) he

/-- The agent of a tile. -/
theorem State.focus_of_tile {s : State} {t : Tile} (h : s.focusTile? = some t) : agentKind s.focus = .tile := by
  unfold State.focusTile? at h
  cases hf : s.focus with
  | tile i => rfl
  | lantern n => rw [hf] at h; cases h

/-- The same for a form that tiles run. -/
theorem IssuesOn.completes {i : Instr} {u : Use} {s r : State} {x : Tile} {g : Guard} {named control : List SOp}
    {body : List SReg → State → Except Trap State} (h : IssuesOn s x g named control)
    (hx : exec i s = issue u s body) (ho : u.only.any (· != .tile) = false) (hg : u.guard = some g) (hn : u.named = named)
    (hk : u.control = control)
    (he : ∀ ρ, ∃ s3, body (sourceValues x.core s.imms u.srcs) (s.begun.modFocus (Tile.retape ρ)) = .ok s3 ∧
      s3.untaped = r.untaped) : Completes i s r :=
  issue_completes hx h.core h.live (by rw [State.focus_of_tile h.tile]; exact ho)
    (fun g' e => by rw [hg] at e; obtain rfl := Option.some.inj e; exact h.guard)
    (by rw [hn]; exact h.banks) (by rw [hk]; exact h.clean) he

/-- The marks of two data sources together (R96, R98). -/
theorem marksOf_two (s : State) (c : Core) (a b : SOp) (j k : Bool) :
    marksOf (sourceValues c s.imms [(a, j), (b, k)]) =
      ((s.operand c 0 a).taint || (s.operand c 1 b).taint, (s.operand c 0 a).poison || (s.operand c 1 b).poison) := by
  unfold marksOf sourceValues State.operand
  cases s.imms <;> simp [List.range_succ_eq_map]

theorem marksOf_one (s : State) (c : Core) (a : SOp) (j : Bool) :
    marksOf (sourceValues c s.imms [(a, j)]) = ((s.operand c 0 a).taint, (s.operand c 0 a).poison) := by
  unfold marksOf sourceValues State.operand
  cases s.imms <;> simp

/-- A change of the tile in the state in which a slot takes effect, the recorder left out. -/
theorem State.untaped_modFocus_entered (s : State) (ρ : Tile → Recorder) (f : Tile → Tile)
    (h : ∀ t : Tile, (f t).untape = f t.untape) :
    ((s.begun.modFocus (Tile.retape ρ)).modFocus f).untaped = (s.begun.modFocus f).untaped := by
  unfold State.untaped
  simp only [State.modFocus_modFocus]
  congr 1; funext t
  exact (h _).trans (h t).symm

theorem State.env_modFocus_entered (s : State) (ρ : Tile → Recorder) (f : Tile → Tile)
    (h : ∀ t, (f t).region = t.region ∧ (f t).cluster = t.cluster) :
    ((s.begun.modFocus (Tile.retape ρ)).modFocus f).env = s.env := by
  rw [State.env_modFocus _ _ h, State.env_entered]

/-- The agent that issues is a tile. -/
theorem State.tile_of_focus {s : State} {t : Tile} (h : s.focusTile? = some t) : ∃ j, s.focus = .tile j := by
  unfold State.focusTile? at h
  cases hf : s.focus with
  | tile j => exact ⟨j, rfl⟩
  | lantern n => rw [hf] at h; cases h

/-- Several changes of the core and of the tile that issue makes, as one change of the tile. -/
theorem State.modFocus_begun {s : State} {j : Nat} (h : s.focus = .tile j) (f : Tile → Tile) :
    s.begun.modFocus f = s.modTile j fun t => f (Tile.onCore (fun c => { c with seq := c.seq + 1 }) t) := by
  have h1 : s.begun.focus = .tile j := by rw [← h]; exact State.modCore_focus ..
  rw [State.modFocus_tile h1]
  unfold State.begun
  rw [State.modCore_tile h, State.modTile_modTile]; rfl

/-- A decided access, alone and with the note of a load's landing. -/
theorem State.pushAccess_untaped {s : State} {t : Tile} (h : s.focusTile? = some t) (ρ : Tile → Recorder) (due : Due)
    (op : AccOp) : ((s.begun.modFocus (Tile.retape ρ)).pushAccess due op).untaped = (s.accesses due 0 op).untaped := by
  obtain ⟨j, hj⟩ := State.tile_of_focus h
  have h1 : ∀ f : Core → Core, (s.modCore f).focus = .tile j := fun f => by rw [State.modCore_focus, hj]
  unfold State.pushAccess State.accesses
  refine (State.untaped_modFocus_entered s ρ _ ?_).trans ?_
  · intro t; rfl
  simp only [State.env_entered, State.slot_entered]
  rw [State.modFocus_begun hj, State.modFocus_tile (h1 _), State.modCore_tile hj, State.modTile_modTile]
  congr 2; funext t
  simp [Tile.onCore]

theorem State.noteLoad_untaped {s : State} {t : Tile} (h : s.focusTile? = some t) (ρ : Tile → Recorder) (due : Due)
    (op : AccOp) (d : SOp) :
    (((s.begun.modFocus (Tile.retape ρ)).pushAccess due op).noteLoad d).untaped =
      (s.accesses due (s.env.ctl + 4) op).untaped := by
  obtain ⟨j, hj⟩ := State.tile_of_focus h
  unfold State.noteLoad
  rw [State.untaped_modFocus _ _ fun t => Tile.untape_noteWrites ..]
  unfold State.pushAccess
  dsimp only
  rw [State.env_modFocus_entered s ρ _ (by intro t; exact ⟨rfl, rfl⟩), State.env_entered, State.slot_entered]
  unfold State.accesses State.untaped State.begun
  simp only [State.modFocus_tile (i := j), State.modCore_tile (i := j), State.modTile_focus, hj, State.modTile_modTile]
  congr 1

/-- The value of the first source, and of others, at issue. -/
theorem operand_zero (s : State) (c : Core) (d : SOp) (b : Bool) (xs : List (SOp × Bool)) :
    srcAt (sourceValues c s.imms ((d, b) :: xs)) 0 = s.operand c 0 d := by
  unfold srcAt sourceValues State.operand
  cases s.imms with
  | none => rfl
  | some vs => simp [List.range_succ_eq_map]

theorem operand_one (s : State) (c : Core) (d e : SOp) (b k : Bool) (xs : List (SOp × Bool)) :
    srcAt (sourceValues c s.imms ((e, k) :: (d, b) :: xs)) 1 = s.operand c 1 d := by
  unfold srcAt sourceValues State.operand
  cases s.imms with
  | none => rfl
  | some vs => simp [List.range_succ_eq_map]

theorem operand_two (s : State) (c : Core) (d e f : SOp) (b k j : Bool) (xs : List (SOp × Bool)) :
    srcAt (sourceValues c s.imms ((f, j) :: (e, k) :: (d, b) :: xs)) 2 = s.operand c 2 d := by
  unfold srcAt sourceValues State.operand
  cases s.imms with
  | none => rfl
  | some vs => simp [List.range_succ_eq_map]

/-- A landing on the tile, and in an S destination (R147). -/
theorem State.landK_untaped (s : State) (ρ : Tile → Recorder) (n : Nat) (eff : Effect) :
    ((s.begun.modFocus (Tile.retape ρ)).landK n eff).untaped = (s.lands 0 [(n, eff)]).untaped := by
  unfold State.landK
  rw [State.untaped_modCore]
  simp [State.lands, Core.land]

end Sys2Proof.Machine
end

