-- ==== Sys2Proof/Laws/Faults.lean ====
section
/-! SUPPORT. What taking a fault does, and the issue of a slot that ends in one. -/

namespace Sys2Proof.Machine

@[simp] theorem State.takeFault_trap (s : State) (f : Trap) : (s.takeFault f).trap = some f := rfl

/-- Taking a fault does not look at the recorder. -/
theorem State.takeFault_untaped (s : State) (ρ : Tile → Recorder) (f : Trap) :
    ((s.modFocus (Tile.retape ρ)).takeFault f).untaped = (s.takeFault f).untaped := by
  cases h : s.focus with
  | lantern n => rw [State.modFocus_lantern h]
  | tile j =>
    have h1 : (s.modFocus (Tile.retape ρ)).focus = .tile j := by rw [State.modFocus_focus, h]
    have he : (s.modFocus (Tile.retape ρ)).env = s.env := State.env_modFocus s (Tile.retape ρ) fun t => ⟨rfl, rfl⟩
    have key : ∀ (u : State) (code : Nat) (a : Word) (k n : Nat),
        ((u.modTile j (Tile.retape ρ)).faultTile j code a k n).modTile j Tile.untape =
          (u.faultTile j code a k n).modTile j Tile.untape := by
      intro u code a k n
      unfold State.faultTile
      simp only [State.tile?_modTile]
      cases u.tile? j with
      | none =>
        simp only [State.requestHalt, State.modRegion, State.modTile, list_modify_modify, Option.map_none]
        congr 1
      | some t =>
        simp only [State.requestHalt, State.modRegion, State.modTile, list_modify_modify, Option.map_some, Tile.retape]
        congr 1
    have h3 : ∀ u : State, u.focus = .tile j → ({ u with trap := some f } : State).modFocus Tile.untape =
        { u.modTile j Tile.untape with trap := some f } := by
      intro u hu
      exact State.modFocus_tile (s := { u with trap := some f }) (i := j) hu Tile.untape
    have h4 : ∀ (u : State) (code : Nat) (a : Word) (k n : Nat), u.focus = .tile j →
        (u.faultTile j code a k n).focus = .tile j := by
      intro u code a k n hu
      unfold State.faultTile State.requestHalt
      simp [hu]
    unfold State.takeFault State.untaped
    simp only [h1, h, he]
    rw [h3 _ (h4 _ _ _ _ _ h1), h3 _ (h4 _ _ _ _ _ h), State.modFocus_tile h, key]

end Sys2Proof.Machine
end

