-- ==== Sys2Proof/Laws/Mem.lean ====
section
/-! SUPPORT. Memory: reads after writes, and the canonical form that every operation keeps. -/

namespace Sys2Proof.Machine

/-! ## Sparse lists -/

theorem keysRise_mono {α : Type} {lo lo' : Nat} (h : lo' ≤ lo) {xs : List (Nat × α)} (hx : keysRise lo xs = true) :
    keysRise lo' xs = true := by
  cases xs with
  | nil => rfl
  | cons x xs =>
    simp only [keysRise, Bool.and_eq_true, decide_eq_true_eq] at hx ⊢
    exact ⟨le_trans h hx.1, hx.2⟩

theorem lookupKey_of_lt {α : Type} (d : α) {lo a : Nat} {xs : List (Nat × α)} (hx : keysRise lo xs = true) (h : a < lo) :
    lookupKey d xs a = d := by
  induction xs generalizing lo with
  | nil => rfl
  | cons x xs ih =>
    simp only [keysRise, Bool.and_eq_true, decide_eq_true_eq] at hx
    have hne : x.1 ≠ a := by omega
    simp only [lookupKey, hne, if_false]
    exact ih hx.2 (by omega)

theorem keysRise_setKey {α : Type} [DecidableEq α] (d : α) {lo a : Nat} {xs : List (Nat × α)} (v : α)
    (hx : keysRise lo xs = true) (h : lo ≤ a) : keysRise lo (setKey d xs a v) = true := by
  induction xs generalizing lo with
  | nil =>
    simp only [setKey]
    split
    · rfl
    · simpa [keysRise] using h
  | cons x xs ih =>
    have hx0 := hx
    simp only [keysRise, Bool.and_eq_true, decide_eq_true_eq] at hx
    simp only [setKey]
    split
    · split
      · exact hx0
      · simp only [keysRise, Bool.and_eq_true, decide_eq_true_eq]
        exact ⟨h, by omega, hx.2⟩
    · split
      · split
        · exact keysRise_mono (by omega) hx.2
        · simp only [keysRise, Bool.and_eq_true, decide_eq_true_eq]
          refine ⟨h, ?_⟩
          rename_i e _
          rw [e]; exact hx.2
      · simp only [keysRise, Bool.and_eq_true, decide_eq_true_eq]
        exact ⟨hx.1, ih hx.2 (by omega)⟩

theorem lookupKey_setKey {α : Type} [DecidableEq α] (d : α) {lo : Nat} {xs : List (Nat × α)} (a : Nat) (v : α)
    (hx : keysRise lo xs = true) (b : Nat) : lookupKey d (setKey d xs a v) b = if b = a then v else lookupKey d xs b := by
  induction xs generalizing lo with
  | nil =>
    simp only [setKey]
    by_cases hv : v = d
    · simp [hv, lookupKey]
    · by_cases hb : b = a
      · simp [hv, lookupKey, hb]
      · have : a ≠ b := fun e => hb e.symm
        simp [hv, lookupKey, hb, this]
  | cons x xs ih =>
    simp only [keysRise, Bool.and_eq_true, decide_eq_true_eq] at hx
    have hlow : ∀ c, c ≤ x.1 → lookupKey d xs c = d := fun c hc => lookupKey_of_lt d hx.2 (by omega)
    simp only [setKey]
    split
    · rename_i hlt
      by_cases hb : b = a
      · subst hb
        have hne : ¬x.1 = b := by omega
        by_cases hv : v = d <;> simp [hv, lookupKey, hne, hlow b (by omega)]
      · have hab : ¬a = b := fun e => hb e.symm
        by_cases hv : v = d <;> simp [hv, lookupKey, hb, hab]
    · split
      · rename_i hge heq
        by_cases hb : b = a
        · subst hb
          by_cases hv : v = d <;> simp [hv, lookupKey, hlow b (by omega)]
        · have hab : ¬a = b := fun e => hb e.symm
          have hxb : ¬x.1 = b := by omega
          by_cases hv : v = d <;> simp [hv, lookupKey, hb, hab, hxb]
      · rename_i hge hne
        simp only [lookupKey]
        by_cases hb : x.1 = b
        · have : ¬b = a := by omega
          simp [hb, this]
        · simp [hb, ih hx.2]

theorem all_setKey {α : Type} [DecidableEq α] (d : α) {xs : List (Nat × α)} (a : Nat) (v : α)
    (h : xs.all (fun c => c.2 != d) = true) : (setKey d xs a v).all (fun c => c.2 != d) = true := by
  induction xs with
  | nil =>
    simp only [setKey]
    split
    · rfl
    · simpa using ‹_›
  | cons x xs ih =>
    simp only [List.all_cons, Bool.and_eq_true] at h
    simp only [setKey]
    split
    · split
      · simp only [List.all_cons, Bool.and_eq_true]; exact h
      · simp only [List.all_cons, Bool.and_eq_true]; exact ⟨by simpa using ‹_›, h⟩
    · split
      · split
        · exact h.2
        · simp only [List.all_cons, Bool.and_eq_true]; exact ⟨by simpa using ‹_›, h.2⟩
      · simp only [List.all_cons, Bool.and_eq_true]; exact ⟨h.1, ih h.2⟩

/-! ## One byte, one mark -/

theorem Mem.wf_iff (m : Mem) : m.wf = true ↔
    (keysRise 0 m.cells = true ∧ m.cells.all (fun c => c.2 != Mem.unlisted) = true) ∧
      (keysRise 0 m.marks = true ∧ m.marks.all (fun c => c.2 != WordMark.clean) = true) := by
  simp only [Mem.wf, Bool.and_eq_true, and_assoc]

theorem Mem.wf_setByte {m : Mem} (h : m.wf = true) (a : Nat) (v : Byte) : (m.setByte a v).wf = true := by
  rw [Mem.wf_iff] at h ⊢
  exact ⟨⟨keysRise_setKey _ _ h.1.1 (Nat.zero_le _), all_setKey _ _ _ h.1.2⟩, h.2⟩

theorem Mem.wf_setMark {m : Mem} (h : m.wf = true) (w : Nat) (x : WordMark) : (m.setMark w x).wf = true := by
  rw [Mem.wf_iff] at h ⊢
  exact ⟨h.1, keysRise_setKey _ _ h.2.1 (Nat.zero_le _), all_setKey _ _ _ h.2.2⟩

theorem Mem.byte_setByte {m : Mem} (h : m.wf = true) (a : Nat) (v : Byte) (b : Nat) :
    (m.setByte a v).byte b = if b = a then v else m.byte b :=
  lookupKey_setKey _ a v ((Mem.wf_iff m).1 h).1.1 b

theorem Mem.mark_setMark {m : Mem} (h : m.wf = true) (w : Nat) (x : WordMark) (v : Nat) :
    (m.setMark w x).mark v = if v = w then x else m.mark v :=
  lookupKey_setKey _ w x ((Mem.wf_iff m).1 h).2.1 v

@[simp] theorem Mem.byte_setMark (m : Mem) (w : Nat) (x : WordMark) (b : Nat) : (m.setMark w x).byte b = m.byte b := rfl
@[simp] theorem Mem.mark_setByte (m : Mem) (a : Nat) (v : Byte) (w : Nat) : (m.setByte a v).mark w = m.mark w := rfl

theorem Mem.wf_empty : Mem.empty.wf = true := rfl

/-! ## Runs of bytes -/

theorem Mem.wf_setBytes {m : Mem} (h : m.wf = true) (a : Nat) (bs : List Byte) : (m.setBytes a bs).wf = true := by
  induction bs generalizing m a with
  | nil => exact h
  | cons b bs ih => exact ih (Mem.wf_setByte h a b) (a + 1)

@[simp] theorem Mem.marks_setBytes (m : Mem) (a : Nat) (bs : List Byte) : (m.setBytes a bs).marks = m.marks := by
  induction bs generalizing m a with
  | nil => rfl
  | cons b bs ih => exact ih (m.setByte a b) (a + 1)

@[simp] theorem Mem.mark_setBytes (m : Mem) (a : Nat) (bs : List Byte) (w : Nat) : (m.setBytes a bs).mark w = m.mark w := by
  simp [Mem.mark]

theorem Mem.byte_setBytes {m : Mem} (h : m.wf = true) (a : Nat) (bs : List Byte) (b : Nat) :
    (m.setBytes a bs).byte b = if a ≤ b ∧ b < a + bs.length then bs.getD (b - a) 0 else m.byte b := by
  induction bs generalizing m a with
  | nil =>
    have : ¬(a ≤ b ∧ b < a + ([] : List Byte).length) := by simp
    rw [if_neg this]; rfl
  | cons x xs ih =>
    rw [Mem.setBytes, ih (Mem.wf_setByte h a x) (a + 1), Mem.byte_setByte h]
    simp only [List.length_cons]
    by_cases hb : b = a
    · subst hb
      have h1 : ¬(b + 1 ≤ b ∧ b < b + 1 + xs.length) := by omega
      have h2 : b ≤ b ∧ b < b + (xs.length + 1) := by omega
      rw [if_neg h1, if_pos h2]
      simp
    · by_cases hr : a + 1 ≤ b ∧ b < a + 1 + xs.length
      · have h2 : a ≤ b ∧ b < a + (xs.length + 1) := by omega
        rw [if_pos hr, if_pos h2]
        have : b - a = b - (a + 1) + 1 := by omega
        rw [this]; simp
      · have h2 : ¬(a ≤ b ∧ b < a + (xs.length + 1)) := by omega
        rw [if_neg hr, if_neg h2, if_neg hb]

/-- Marks set word by word keep the canonical form and every byte. -/
theorem Mem.wf_foldl_setMark {m : Mem} (h : m.wf = true) (f : Mem → Nat → Mem) (hf : ∀ x w, ∃ y, f x w = x.setMark w y)
    (ws : List Nat) : (ws.foldl f m).wf = true := by
  induction ws generalizing m with
  | nil => exact h
  | cons w ws ih =>
    obtain ⟨y, hy⟩ := hf m w
    rw [List.foldl_cons, hy]
    exact ih (Mem.wf_setMark h w y)

theorem Mem.byte_foldl_setMark (m : Mem) (f : Mem → Nat → Mem) (hf : ∀ x w, ∃ y, f x w = x.setMark w y) (ws : List Nat)
    (b : Nat) : (ws.foldl f m).byte b = m.byte b := by
  induction ws generalizing m with
  | nil => rfl
  | cons w ws ih =>
    obtain ⟨y, hy⟩ := hf m w
    rw [List.foldl_cons, hy, ih]; rfl

theorem Mem.wf_write {m : Mem} (h : m.wf = true) (a : Nat) (bs : List Byte) (p : Bool) : (m.write a bs p).wf = true :=
  Mem.wf_foldl_setMark (Mem.wf_setBytes h a bs) _ (fun _ _ => ⟨_, rfl⟩) _

theorem Mem.byte_write {m : Mem} (h : m.wf = true) (a : Nat) (bs : List Byte) (p : Bool) (b : Nat) :
    (m.write a bs p).byte b = if a ≤ b ∧ b < a + bs.length then bs.getD (b - a) 0 else m.byte b := by
  exact (Mem.byte_foldl_setMark _ _ (fun _ _ => ⟨_, rfl⟩) _ b).trans (Mem.byte_setBytes h a bs b)

theorem wf_writeMarked {m : Mem} (h : m.wf = true) (a : Nat) (bs : List Byte) (ps : List Bool) :
    (writeMarked m a bs ps).wf = true :=
  Mem.wf_foldl_setMark (Mem.wf_setBytes h a bs) _ (fun _ _ => ⟨_, rfl⟩) _

theorem byte_writeMarked {m : Mem} (h : m.wf = true) (a : Nat) (bs : List Byte) (ps : List Bool) (b : Nat) :
    (writeMarked m a bs ps).byte b = if a ≤ b ∧ b < a + bs.length then bs.getD (b - a) 0 else m.byte b := by
  exact (Mem.byte_foldl_setMark _ _ (fun _ _ => ⟨_, rfl⟩) _ b).trans (Mem.byte_setBytes h a bs b)

/-- The merge of one pending word. -/
theorem Mem.wf_foldl_setByte {m : Mem} (h : m.wf = true) (f : Mem → Nat → Mem)
    (hf : ∀ x j, f x j = x ∨ ∃ a v, f x j = x.setByte a v) (js : List Nat) : (js.foldl f m).wf = true := by
  induction js generalizing m with
  | nil => exact h
  | cons j js ih =>
    rw [List.foldl_cons]
    rcases hf m j with e | ⟨a, v, e⟩
    · rw [e]; exact ih h
    · rw [e]; exact ih (Mem.wf_setByte h a v)

theorem PWrite.wf_merge {m : Mem} (h : m.wf = true) (w : PWrite) : (w.merge m).wf = true := by
  unfold PWrite.merge
  refine Mem.wf_setMark (Mem.wf_foldl_setByte h _ (fun x j => ?_) _) _ _
  split
  · exact .inr ⟨_, _, rfl⟩
  · exact .inl rfl

theorem Mem.wf_strike {m : Mem} (h : m.wf = true) (w : Nat) (k : ErrKind) : (m.strike w k).wf = true := by
  unfold Mem.strike
  split
  · split
    · exact h
    · exact Mem.wf_setMark h _ _
  · exact Mem.wf_setMark (Mem.wf_setBytes h _ _) _ _

/-- The memories of the machine after reset. -/
theorem State.reset_canonical_memories : State.reset.dram.wf = true ∧ State.reset.host.wf = true := ⟨rfl, rfl⟩

end Sys2Proof.Machine
end

