-- ==== Sys2Proof/Laws/PerInstr.lean ====
section
/-! SUPPORT. One lemma per instruction about its encoding: class, opcode, guard and operand field each fit in their place
in the slot word (R33), so that no field runs into another. -/

namespace Sys2Proof.Laws

/-! ## The codes of the operands (R46 to R54) -/

theorem sop_code_lt (d : SOp) : d.code < 64 := by
  cases d with
  | s n => exact Nat.lt_of_lt_of_le n.isLt (by decide)
  | o n => have := n.isLt; simp only [SOp.code]; omega
  | l => decide
theorem cond_code_lt (c : Cond) : c.code < 8 := by cases c <;> decide
theorem plogOp_code_lt (c : PlogOp) : c.code < 4 := by cases c <;> decide
theorem vtype_code_lt (c : VType) : c.code < 8 := by cases c <;> decide
theorem redFn_code_lt (c : RedFn) : c.code < 16 := by cases c <;> decide
theorem redxFn_code_lt (c : RedxFn) : c.code < 16 := by cases c <;> decide
theorem groupSize_code_lt (c : GroupSize) : c.code < 4 := by cases c <;> decide
theorem agWord_code_lt (w : AgWord) : w.code < 64 := by cases w <;> decide
theorem bankState_code_lt (c : BankState) : c.code < 4 := by cases c <;> decide
theorem bankSel_code_lt (c : BankSel) : c.code < 4 := by cases c <;> decide
theorem evOp_code_lt (c : EvOp) : c.code < 64 := by cases c <;> decide
theorem f3_lt {a b c : Nat} (ha : a < 64) (hb : b < 64) (hc : c < 64) : f3 a b c < 2 ^ 18 := by
  unfold f3; omega
theorem vop_lt (t : VType) (m : Fin 8) {d a b : Nat} (hd : d < 16) (ha : a < 16) (hb : b < 16) : vop t m d a b < 2 ^ 18 := by
  have := vtype_code_lt t; have := m.isLt; unfold vop; omega
theorem mop_lt {z p x y n : Nat} (hz : z < 2) (hp : p < 4) (hx : x < 32) (hy : y < 32) (hn : n < 32) :
    mop z p x y n < 2 ^ 18 := by
  unfold mop; omega

namespace FieldsFit

/-- Class, opcode, guard and operand field of the instruction fit in 3, 6, 4 and 18 bits. -/
def Statement (i : Instr) : Prop :=
  ∀ x, encodeFields i = some x → x.1 < 7 ∧ x.2.1 < 64 ∧ x.2.2.1 < 16 ∧ x.2.2.2 < 2 ^ 18

/-- The fields of a slot instruction fit. -/
theorem of_slot {cls op opr : Nat} (g : Guard) (hc : cls < 7) (ho : op < 64) (hr : opr < 2 ^ 18) (x : Nat × Nat × Nat × Nat)
    (h : some (cls, op, g.val, opr) = some x) : x.1 < 7 ∧ x.2.1 < 64 ∧ x.2.2.1 < 16 ∧ x.2.2.2 < 2 ^ 18 := by
  cases h; exact ⟨hc, ho, g.isLt, hr⟩

theorem nop (g) : Statement (.nop g) :=
  of_slot g (by decide) (by decide) (by decide)
theorem add (g d a b) : Statement (.add g d a b) :=
  of_slot g (by decide) (by decide) (f3_lt (sop_code_lt d) (sop_code_lt a) (sop_code_lt b))
theorem sub (g d a b) : Statement (.sub g d a b) :=
  of_slot g (by decide) (by decide) (f3_lt (sop_code_lt d) (sop_code_lt a) (sop_code_lt b))
theorem and (g d a b) : Statement (.and g d a b) :=
  of_slot g (by decide) (by decide) (f3_lt (sop_code_lt d) (sop_code_lt a) (sop_code_lt b))
theorem or (g d a b) : Statement (.or g d a b) :=
  of_slot g (by decide) (by decide) (f3_lt (sop_code_lt d) (sop_code_lt a) (sop_code_lt b))
theorem xor (g d a b) : Statement (.xor g d a b) :=
  of_slot g (by decide) (by decide) (f3_lt (sop_code_lt d) (sop_code_lt a) (sop_code_lt b))
theorem shl (g d a b) : Statement (.shl g d a b) :=
  of_slot g (by decide) (by decide) (f3_lt (sop_code_lt d) (sop_code_lt a) (sop_code_lt b))
theorem shr (g d a b) : Statement (.shr g d a b) :=
  of_slot g (by decide) (by decide) (f3_lt (sop_code_lt d) (sop_code_lt a) (sop_code_lt b))
theorem sra (g d a b) : Statement (.sra g d a b) :=
  of_slot g (by decide) (by decide) (f3_lt (sop_code_lt d) (sop_code_lt a) (sop_code_lt b))
theorem min (g d a b) : Statement (.min g d a b) :=
  of_slot g (by decide) (by decide) (f3_lt (sop_code_lt d) (sop_code_lt a) (sop_code_lt b))
theorem max (g d a b) : Statement (.max g d a b) :=
  of_slot g (by decide) (by decide) (f3_lt (sop_code_lt d) (sop_code_lt a) (sop_code_lt b))
theorem minu (g d a b) : Statement (.minu g d a b) :=
  of_slot g (by decide) (by decide) (f3_lt (sop_code_lt d) (sop_code_lt a) (sop_code_lt b))
theorem maxu (g d a b) : Statement (.maxu g d a b) :=
  of_slot g (by decide) (by decide) (f3_lt (sop_code_lt d) (sop_code_lt a) (sop_code_lt b))
theorem mul (g d a b) : Statement (.mul g d a b) :=
  of_slot g (by decide) (by decide) (f3_lt (sop_code_lt d) (sop_code_lt a) (sop_code_lt b))
theorem mulh (g d a b) : Statement (.mulh g d a b) :=
  of_slot g (by decide) (by decide) (f3_lt (sop_code_lt d) (sop_code_lt a) (sop_code_lt b))
theorem mulhu (g d a b) : Statement (.mulhu g d a b) :=
  of_slot g (by decide) (by decide) (f3_lt (sop_code_lt d) (sop_code_lt a) (sop_code_lt b))
theorem div (g d a b) : Statement (.div g d a b) :=
  of_slot g (by decide) (by decide) (f3_lt (sop_code_lt d) (sop_code_lt a) (sop_code_lt b))
theorem divu (g d a b) : Statement (.divu g d a b) :=
  of_slot g (by decide) (by decide) (f3_lt (sop_code_lt d) (sop_code_lt a) (sop_code_lt b))
theorem rem (g d a b) : Statement (.rem g d a b) :=
  of_slot g (by decide) (by decide) (f3_lt (sop_code_lt d) (sop_code_lt a) (sop_code_lt b))
theorem remu (g d a b) : Statement (.remu g d a b) :=
  of_slot g (by decide) (by decide) (f3_lt (sop_code_lt d) (sop_code_lt a) (sop_code_lt b))
theorem addi (g d a i) : Statement (.addi g d a i) :=
  of_slot g (by decide) (by decide) (f3_lt (sop_code_lt d) (sop_code_lt a) (Nat.lt_of_lt_of_le i.isLt (by decide)))
theorem andi (g d a i) : Statement (.andi g d a i) :=
  of_slot g (by decide) (by decide) (f3_lt (sop_code_lt d) (sop_code_lt a) (Nat.lt_of_lt_of_le i.isLt (by decide)))
theorem ori (g d a i) : Statement (.ori g d a i) :=
  of_slot g (by decide) (by decide) (f3_lt (sop_code_lt d) (sop_code_lt a) (Nat.lt_of_lt_of_le i.isLt (by decide)))
theorem xori (g d a i) : Statement (.xori g d a i) :=
  of_slot g (by decide) (by decide) (f3_lt (sop_code_lt d) (sop_code_lt a) (Nat.lt_of_lt_of_le i.isLt (by decide)))
theorem shli (g d a i) : Statement (.shli g d a i) :=
  of_slot g (by decide) (by decide) (f3_lt (sop_code_lt d) (sop_code_lt a) (Nat.lt_of_lt_of_le i.isLt (by decide)))
theorem shri (g d a i) : Statement (.shri g d a i) :=
  of_slot g (by decide) (by decide) (f3_lt (sop_code_lt d) (sop_code_lt a) (Nat.lt_of_lt_of_le i.isLt (by decide)))
theorem srai (g d a i) : Statement (.srai g d a i) :=
  of_slot g (by decide) (by decide) (f3_lt (sop_code_lt d) (sop_code_lt a) (Nat.lt_of_lt_of_le i.isLt (by decide)))
theorem li (g d i) : Statement (.li g d i) :=
  of_slot g (by decide) (by decide) (by have := sop_code_lt d; have := i.isLt; omega)
theorem lis (g d i) : Statement (.lis g d i) :=
  of_slot g (by decide) (by decide) (by have := sop_code_lt d; have := i.isLt; omega)
theorem sel (g d a b) : Statement (.sel g d a b) :=
  of_slot g (by decide) (by decide) (f3_lt (sop_code_lt d) (sop_code_lt a) (sop_code_lt b))
theorem clz (g d a) : Statement (.clz g d a) :=
  of_slot g (by decide) (by decide) (f3_lt (sop_code_lt d) (sop_code_lt a) (by decide))
theorem popc (g d a) : Statement (.popc g d a) :=
  of_slot g (by decide) (by decide) (f3_lt (sop_code_lt d) (sop_code_lt a) (by decide))
theorem cmp (g k c a b) : Statement (.cmp g k c a b) :=
  of_slot g (by decide) (by decide) (by have := k.isLt; have := cond_code_lt c; have := sop_code_lt a; have := sop_code_lt b; omega)
theorem cmpi (g k c a i) : Statement (.cmpi g k c a i) :=
  of_slot g (by decide) (by decide) (by have := k.isLt; have := cond_code_lt c; have := sop_code_lt a; have := i.isLt; omega)
theorem plog (g k op x y) : Statement (.plog g k op x y) :=
  of_slot g (by decide) (by decide) (by have := k.isLt; have := plogOp_code_lt op; have := x.isLt; have := y.isLt; omega)
theorem pbt (g b i) : Statement (.pbt g b i) :=
  of_slot g (by decide) (by decide) (by have := b.isLt; have := i.isLt; omega)
theorem pbr (g b a) : Statement (.pbr g b a) :=
  of_slot g (by decide) (by decide) (by have := b.isLt; have := sop_code_lt a; omega)
theorem br (g b) : Statement (.br g b) :=
  of_slot g (by decide) (by decide) (by have := b.isLt; omega)
theorem call (g b) : Statement (.call g b) :=
  of_slot g (by decide) (by decide) (by have := b.isLt; omega)
theorem ret (g) : Statement (.ret g) :=
  of_slot g (by decide) (by decide) (by decide)
theorem jal (g b i) : Statement (.jal g b i) :=
  of_slot g (by decide) (by decide) (by have := b.isLt; have := i.isLt; omega)
theorem jr (g b) : Statement (.jr g b) :=
  of_slot g (by decide) (by decide) (by have := b.isLt; omega)
theorem loop (g a n) : Statement (.loop g a n) :=
  of_slot g (by decide) (by decide) (by have := sop_code_lt a; have := n.isLt; omega)
theorem ldB (g d a i) : Statement (.ldB g d a i) :=
  of_slot g (by decide) (by decide) (f3_lt (sop_code_lt d) (sop_code_lt a) (Nat.lt_of_lt_of_le i.isLt (by decide)))
theorem ldH (g d a i) : Statement (.ldH g d a i) :=
  of_slot g (by decide) (by decide) (f3_lt (sop_code_lt d) (sop_code_lt a) (Nat.lt_of_lt_of_le i.isLt (by decide)))
theorem ldW (g d a i) : Statement (.ldW g d a i) :=
  of_slot g (by decide) (by decide) (f3_lt (sop_code_lt d) (sop_code_lt a) (Nat.lt_of_lt_of_le i.isLt (by decide)))
theorem ldD (g d a i) : Statement (.ldD g d a i) :=
  of_slot g (by decide) (by decide) (f3_lt (sop_code_lt d) (sop_code_lt a) (Nat.lt_of_lt_of_le i.isLt (by decide)))
theorem ldBU (g d a i) : Statement (.ldBU g d a i) :=
  of_slot g (by decide) (by decide) (f3_lt (sop_code_lt d) (sop_code_lt a) (Nat.lt_of_lt_of_le i.isLt (by decide)))
theorem ldHU (g d a i) : Statement (.ldHU g d a i) :=
  of_slot g (by decide) (by decide) (f3_lt (sop_code_lt d) (sop_code_lt a) (Nat.lt_of_lt_of_le i.isLt (by decide)))
theorem ldWU (g d a i) : Statement (.ldWU g d a i) :=
  of_slot g (by decide) (by decide) (f3_lt (sop_code_lt d) (sop_code_lt a) (Nat.lt_of_lt_of_le i.isLt (by decide)))
theorem stB (g d a i) : Statement (.stB g d a i) :=
  of_slot g (by decide) (by decide) (f3_lt (sop_code_lt d) (sop_code_lt a) (Nat.lt_of_lt_of_le i.isLt (by decide)))
theorem stH (g d a i) : Statement (.stH g d a i) :=
  of_slot g (by decide) (by decide) (f3_lt (sop_code_lt d) (sop_code_lt a) (Nat.lt_of_lt_of_le i.isLt (by decide)))
theorem stW (g d a i) : Statement (.stW g d a i) :=
  of_slot g (by decide) (by decide) (f3_lt (sop_code_lt d) (sop_code_lt a) (Nat.lt_of_lt_of_le i.isLt (by decide)))
theorem stD (g d a i) : Statement (.stD g d a i) :=
  of_slot g (by decide) (by decide) (f3_lt (sop_code_lt d) (sop_code_lt a) (Nat.lt_of_lt_of_le i.isLt (by decide)))
theorem atomAdd (g d a b) : Statement (.atomAdd g d a b) :=
  of_slot g (by decide) (by decide) (f3_lt (sop_code_lt d) (sop_code_lt a) (sop_code_lt b))
theorem atomMin (g d a b) : Statement (.atomMin g d a b) :=
  of_slot g (by decide) (by decide) (f3_lt (sop_code_lt d) (sop_code_lt a) (sop_code_lt b))
theorem atomMax (g d a b) : Statement (.atomMax g d a b) :=
  of_slot g (by decide) (by decide) (f3_lt (sop_code_lt d) (sop_code_lt a) (sop_code_lt b))
theorem atomAnd (g d a b) : Statement (.atomAnd g d a b) :=
  of_slot g (by decide) (by decide) (f3_lt (sop_code_lt d) (sop_code_lt a) (sop_code_lt b))
theorem atomOr (g d a b) : Statement (.atomOr g d a b) :=
  of_slot g (by decide) (by decide) (f3_lt (sop_code_lt d) (sop_code_lt a) (sop_code_lt b))
theorem atomXor (g d a b) : Statement (.atomXor g d a b) :=
  of_slot g (by decide) (by decide) (f3_lt (sop_code_lt d) (sop_code_lt a) (sop_code_lt b))
theorem atomSwap (g d a b) : Statement (.atomSwap g d a b) :=
  of_slot g (by decide) (by decide) (f3_lt (sop_code_lt d) (sop_code_lt a) (sop_code_lt b))
theorem cas (g d a b) : Statement (.cas g d a b) :=
  of_slot g (by decide) (by decide) (f3_lt (sop_code_lt d) (sop_code_lt a) (sop_code_lt b))
theorem mfs (g d i) : Statement (.mfs g d i) :=
  of_slot g (by decide) (by decide) (by have := sop_code_lt d; have := i.isLt; omega)
theorem mts (g i a) : Statement (.mts g i a) :=
  of_slot g (by decide) (by decide) (by have := sop_code_lt a; have := i.isLt; omega)
theorem vnop (g) : Statement (.vnop g) :=
  of_slot g (by decide) (by decide) (by decide)
theorem vadd (g t m d a b) : Statement (.vadd g t m d a b) :=
  of_slot g (by decide) (by decide) (vop_lt t m (Nat.lt_of_lt_of_le d.isLt (by decide)) (Nat.lt_of_lt_of_le a.isLt (by decide)) (Nat.lt_of_lt_of_le b.isLt (by decide)))
theorem vsub (g t m d a b) : Statement (.vsub g t m d a b) :=
  of_slot g (by decide) (by decide) (vop_lt t m (Nat.lt_of_lt_of_le d.isLt (by decide)) (Nat.lt_of_lt_of_le a.isLt (by decide)) (Nat.lt_of_lt_of_le b.isLt (by decide)))
theorem vmul (g t m d a b) : Statement (.vmul g t m d a b) :=
  of_slot g (by decide) (by decide) (vop_lt t m (Nat.lt_of_lt_of_le d.isLt (by decide)) (Nat.lt_of_lt_of_le a.isLt (by decide)) (Nat.lt_of_lt_of_le b.isLt (by decide)))
theorem vfma (g t m d a b) : Statement (.vfma g t m d a b) :=
  of_slot g (by decide) (by decide) (vop_lt t m (Nat.lt_of_lt_of_le d.isLt (by decide)) (Nat.lt_of_lt_of_le a.isLt (by decide)) (Nat.lt_of_lt_of_le b.isLt (by decide)))
theorem vmin (g t m d a b) : Statement (.vmin g t m d a b) :=
  of_slot g (by decide) (by decide) (vop_lt t m (Nat.lt_of_lt_of_le d.isLt (by decide)) (Nat.lt_of_lt_of_le a.isLt (by decide)) (Nat.lt_of_lt_of_le b.isLt (by decide)))
theorem vmax (g t m d a b) : Statement (.vmax g t m d a b) :=
  of_slot g (by decide) (by decide) (vop_lt t m (Nat.lt_of_lt_of_le d.isLt (by decide)) (Nat.lt_of_lt_of_le a.isLt (by decide)) (Nat.lt_of_lt_of_le b.isLt (by decide)))
theorem vabs (g t m d a) : Statement (.vabs g t m d a) :=
  of_slot g (by decide) (by decide) (vop_lt t m (Nat.lt_of_lt_of_le d.isLt (by decide)) (Nat.lt_of_lt_of_le a.isLt (by decide)) (by decide))
theorem vneg (g t m d a) : Statement (.vneg g t m d a) :=
  of_slot g (by decide) (by decide) (vop_lt t m (Nat.lt_of_lt_of_le d.isLt (by decide)) (Nat.lt_of_lt_of_le a.isLt (by decide)) (by decide))
theorem vadds (g t m d a b) : Statement (.vadds g t m d a b) :=
  of_slot g (by decide) (by decide) (vop_lt t m (Nat.lt_of_lt_of_le d.isLt (by decide)) (Nat.lt_of_lt_of_le a.isLt (by decide)) (Nat.lt_of_lt_of_le b.isLt (by decide)))
theorem vsubs (g t m d a b) : Statement (.vsubs g t m d a b) :=
  of_slot g (by decide) (by decide) (vop_lt t m (Nat.lt_of_lt_of_le d.isLt (by decide)) (Nat.lt_of_lt_of_le a.isLt (by decide)) (Nat.lt_of_lt_of_le b.isLt (by decide)))
theorem vand (g t m d a b) : Statement (.vand g t m d a b) :=
  of_slot g (by decide) (by decide) (vop_lt t m (Nat.lt_of_lt_of_le d.isLt (by decide)) (Nat.lt_of_lt_of_le a.isLt (by decide)) (Nat.lt_of_lt_of_le b.isLt (by decide)))
theorem vor (g t m d a b) : Statement (.vor g t m d a b) :=
  of_slot g (by decide) (by decide) (vop_lt t m (Nat.lt_of_lt_of_le d.isLt (by decide)) (Nat.lt_of_lt_of_le a.isLt (by decide)) (Nat.lt_of_lt_of_le b.isLt (by decide)))
theorem vxor (g t m d a b) : Statement (.vxor g t m d a b) :=
  of_slot g (by decide) (by decide) (vop_lt t m (Nat.lt_of_lt_of_le d.isLt (by decide)) (Nat.lt_of_lt_of_le a.isLt (by decide)) (Nat.lt_of_lt_of_le b.isLt (by decide)))
theorem vshl (g t m d a b) : Statement (.vshl g t m d a b) :=
  of_slot g (by decide) (by decide) (vop_lt t m (Nat.lt_of_lt_of_le d.isLt (by decide)) (Nat.lt_of_lt_of_le a.isLt (by decide)) (Nat.lt_of_lt_of_le b.isLt (by decide)))
theorem vshr (g t m d a b) : Statement (.vshr g t m d a b) :=
  of_slot g (by decide) (by decide) (vop_lt t m (Nat.lt_of_lt_of_le d.isLt (by decide)) (Nat.lt_of_lt_of_le a.isLt (by decide)) (Nat.lt_of_lt_of_le b.isLt (by decide)))
theorem vsra (g t m d a b) : Statement (.vsra g t m d a b) :=
  of_slot g (by decide) (by decide) (vop_lt t m (Nat.lt_of_lt_of_le d.isLt (by decide)) (Nat.lt_of_lt_of_le a.isLt (by decide)) (Nat.lt_of_lt_of_le b.isLt (by decide)))
theorem vcmpeq (g t m k a b) : Statement (.vcmpeq g t m k a b) :=
  of_slot g (by decide) (by decide) (vop_lt t m (Nat.lt_of_lt_of_le k.isLt (by decide)) (Nat.lt_of_lt_of_le a.isLt (by decide)) (Nat.lt_of_lt_of_le b.isLt (by decide)))
theorem vcmpne (g t m k a b) : Statement (.vcmpne g t m k a b) :=
  of_slot g (by decide) (by decide) (vop_lt t m (Nat.lt_of_lt_of_le k.isLt (by decide)) (Nat.lt_of_lt_of_le a.isLt (by decide)) (Nat.lt_of_lt_of_le b.isLt (by decide)))
theorem vcmplt (g t m k a b) : Statement (.vcmplt g t m k a b) :=
  of_slot g (by decide) (by decide) (vop_lt t m (Nat.lt_of_lt_of_le k.isLt (by decide)) (Nat.lt_of_lt_of_le a.isLt (by decide)) (Nat.lt_of_lt_of_le b.isLt (by decide)))
theorem vcmple (g t m k a b) : Statement (.vcmple g t m k a b) :=
  of_slot g (by decide) (by decide) (vop_lt t m (Nat.lt_of_lt_of_le k.isLt (by decide)) (Nat.lt_of_lt_of_le a.isLt (by decide)) (Nat.lt_of_lt_of_le b.isLt (by decide)))
theorem vsel (g t m d a b) : Statement (.vsel g t m d a b) :=
  of_slot g (by decide) (by decide) (vop_lt t m (Nat.lt_of_lt_of_le d.isLt (by decide)) (Nat.lt_of_lt_of_le a.isLt (by decide)) (Nat.lt_of_lt_of_le b.isLt (by decide)))
theorem vcvt (g t m d a st) : Statement (.vcvt g t m d a st) :=
  of_slot g (by decide) (by decide) (vop_lt t m (Nat.lt_of_lt_of_le d.isLt (by decide)) (Nat.lt_of_lt_of_le a.isLt (by decide)) (Nat.lt_trans (vtype_code_lt st) (by decide)))
theorem vexp2 (g t m d a) : Statement (.vexp2 g t m d a) :=
  of_slot g (by decide) (by decide) (vop_lt t m (Nat.lt_of_lt_of_le d.isLt (by decide)) (Nat.lt_of_lt_of_le a.isLt (by decide)) (by decide))
theorem vlog2 (g t m d a) : Statement (.vlog2 g t m d a) :=
  of_slot g (by decide) (by decide) (vop_lt t m (Nat.lt_of_lt_of_le d.isLt (by decide)) (Nat.lt_of_lt_of_le a.isLt (by decide)) (by decide))
theorem vrcp (g t m d a) : Statement (.vrcp g t m d a) :=
  of_slot g (by decide) (by decide) (vop_lt t m (Nat.lt_of_lt_of_le d.isLt (by decide)) (Nat.lt_of_lt_of_le a.isLt (by decide)) (by decide))
theorem vrsq (g t m d a) : Statement (.vrsq g t m d a) :=
  of_slot g (by decide) (by decide) (vop_lt t m (Nat.lt_of_lt_of_le d.isLt (by decide)) (Nat.lt_of_lt_of_le a.isLt (by decide)) (by decide))
theorem vsqrt (g t m d a) : Statement (.vsqrt g t m d a) :=
  of_slot g (by decide) (by decide) (vop_lt t m (Nat.lt_of_lt_of_le d.isLt (by decide)) (Nat.lt_of_lt_of_le a.isLt (by decide)) (by decide))
theorem vred (g t m k a fn) : Statement (.vred g t m k a fn) :=
  of_slot g (by decide) (by decide) (vop_lt t m (Nat.lt_of_lt_of_le k.isLt (by decide)) (Nat.lt_of_lt_of_le a.isLt (by decide)) (redFn_code_lt fn))
theorem vredx (g t m k a fn) : Statement (.vredx g t m k a fn) :=
  of_slot g (by decide) (by decide) (vop_lt t m (Nat.lt_of_lt_of_le k.isLt (by decide)) (Nat.lt_of_lt_of_le a.isLt (by decide)) (redxFn_code_lt fn))
theorem vscan (g t m d a k) : Statement (.vscan g t m d a k) :=
  of_slot g (by decide) (by decide) (vop_lt t m (Nat.lt_of_lt_of_le d.isLt (by decide)) (Nat.lt_of_lt_of_le a.isLt (by decide)) (Nat.lt_of_lt_of_le k.isLt (by decide)))
theorem vcomp (g t m d a k) : Statement (.vcomp g t m d a k) :=
  of_slot g (by decide) (by decide) (vop_lt t m (Nat.lt_of_lt_of_le d.isLt (by decide)) (Nat.lt_of_lt_of_le a.isLt (by decide)) (Nat.lt_of_lt_of_le k.isLt (by decide)))
theorem vexpd (g t m d a k) : Statement (.vexpd g t m d a k) :=
  of_slot g (by decide) (by decide) (vop_lt t m (Nat.lt_of_lt_of_le d.isLt (by decide)) (Nat.lt_of_lt_of_le a.isLt (by decide)) (Nat.lt_of_lt_of_le k.isLt (by decide)))
theorem vperm (g t m d a b) : Statement (.vperm g t m d a b) :=
  of_slot g (by decide) (by decide) (vop_lt t m (Nat.lt_of_lt_of_le d.isLt (by decide)) (Nat.lt_of_lt_of_le a.isLt (by decide)) (Nat.lt_of_lt_of_le b.isLt (by decide)))
theorem vbcast (g t m d k) : Statement (.vbcast g t m d k) :=
  of_slot g (by decide) (by decide) (vop_lt t m (Nat.lt_of_lt_of_le d.isLt (by decide)) (Nat.lt_of_lt_of_le k.isLt (by decide)) (by decide))
theorem vmov (g t m d a) : Statement (.vmov g t m d a) :=
  of_slot g (by decide) (by decide) (vop_lt t m (Nat.lt_of_lt_of_le d.isLt (by decide)) (Nat.lt_of_lt_of_le a.isLt (by decide)) (by decide))
theorem viota (g t m d k) : Statement (.viota g t m d k) :=
  of_slot g (by decide) (by decide) (vop_lt t m (Nat.lt_of_lt_of_le d.isLt (by decide)) (Nat.lt_of_lt_of_le k.isLt (by decide)) (by decide))
theorem vany (g t m k a) : Statement (.vany g t m k a) :=
  of_slot g (by decide) (by decide) (vop_lt t m (Nat.lt_of_lt_of_le k.isLt (by decide)) (Nat.lt_of_lt_of_le a.isLt (by decide)) (by decide))
theorem vall (g t m k a) : Statement (.vall g t m k a) :=
  of_slot g (by decide) (by decide) (vop_lt t m (Nat.lt_of_lt_of_le k.isLt (by decide)) (Nat.lt_of_lt_of_le a.isLt (by decide)) (by decide))
theorem vpopm (g t m k j) : Statement (.vpopm g t m k j) :=
  of_slot g (by decide) (by decide) (vop_lt t m (Nat.lt_of_lt_of_le k.isLt (by decide)) (Nat.lt_of_lt_of_le j.isLt (by decide)) (by decide))
theorem vmask (g t m k a) : Statement (.vmask g t m k a) :=
  of_slot g (by decide) (by decide) (vop_lt t m (Nat.lt_of_lt_of_le k.isLt (by decide)) (Nat.lt_of_lt_of_le a.isLt (by decide)) (by decide))
theorem vrand (g t m d k1 k2) : Statement (.vrand g t m d k1 k2) :=
  of_slot g (by decide) (by decide) (vop_lt t m (Nat.lt_of_lt_of_le d.isLt (by decide)) (Nat.lt_of_lt_of_le k1.isLt (by decide)) (Nat.lt_of_lt_of_le k2.isLt (by decide)))
theorem vsrt (g t m d a) : Statement (.vsrt g t m d a) :=
  of_slot g (by decide) (by decide) (vop_lt t m (Nat.lt_of_lt_of_le d.isLt (by decide)) (Nat.lt_of_lt_of_le a.isLt (by decide)) (by decide))
theorem vmrg (g t m d a b) : Statement (.vmrg g t m d a b) :=
  of_slot g (by decide) (by decide) (vop_lt t m (Nat.lt_of_lt_of_le d.isLt (by decide)) (Nat.lt_of_lt_of_le a.isLt (by decide)) (Nat.lt_of_lt_of_le b.isLt (by decide)))
theorem vgath (g t m d a b) : Statement (.vgath g t m d a b) :=
  of_slot g (by decide) (by decide) (vop_lt t m (Nat.lt_of_lt_of_le d.isLt (by decide)) (Nat.lt_of_lt_of_le a.isLt (by decide)) (Nat.lt_of_lt_of_le b.isLt (by decide)))
theorem vscat (g t m d a b) : Statement (.vscat g t m d a b) :=
  of_slot g (by decide) (by decide) (vop_lt t m (Nat.lt_of_lt_of_le d.isLt (by decide)) (Nat.lt_of_lt_of_le a.isLt (by decide)) (Nat.lt_of_lt_of_le b.isLt (by decide)))
theorem mnop (g) : Statement (.mnop g) :=
  of_slot g (by decide) (by decide) (by decide)
theorem mclr (g z) : Statement (.mclr g z) :=
  of_slot g (by decide) (by decide) (by have := z.isLt; omega)
theorem mmul (g z p ha hb n) : Statement (.mmul g z p ha hb n) :=
  of_slot g (by decide) (by decide) (mop_lt (Nat.lt_of_lt_of_le z.isLt (by decide)) (Nat.lt_of_lt_of_le p.isLt (by decide)) (Nat.lt_of_lt_of_le ha.isLt (by decide)) (Nat.lt_of_lt_of_le hb.isLt (by decide)) (Nat.lt_of_lt_of_le n.isLt (by decide)))
theorem mmulb (g z grp ha hb a) : Statement (.mmulb g z grp ha hb a) :=
  of_slot g (by decide) (by decide) (by have := z.isLt; have := groupSize_code_lt grp; have := ha.isLt; have := hb.isLt; have := a.isLt; unfold mop; omega)
theorem mout (g z p h) : Statement (.mout g z p h) :=
  of_slot g (by decide) (by decide) (mop_lt (Nat.lt_of_lt_of_le z.isLt (by decide)) (Nat.lt_of_lt_of_le p.isLt (by decide)) (Nat.lt_of_lt_of_le h.isLt (by decide)) (by decide) (by decide))
theorem moutr (g z p h) : Statement (.moutr g z p h) :=
  of_slot g (by decide) (by decide) (mop_lt (Nat.lt_of_lt_of_le z.isLt (by decide)) (Nat.lt_of_lt_of_le p.isLt (by decide)) (Nat.lt_of_lt_of_le h.isLt (by decide)) (by decide) (by decide))
theorem maddr (g z p h) : Statement (.maddr g z p h) :=
  of_slot g (by decide) (by decide) (mop_lt (Nat.lt_of_lt_of_le z.isLt (by decide)) (Nat.lt_of_lt_of_le p.isLt (by decide)) (Nat.lt_of_lt_of_le h.isLt (by decide)) (by decide) (by decide))
theorem mpack (g x y n) : Statement (.mpack g x y n) :=
  of_slot g (by decide) (by decide) (mop_lt (by decide) (by decide) (Nat.lt_of_lt_of_le x.isLt (by decide)) (Nat.lt_of_lt_of_le y.isLt (by decide)) (Nat.lt_of_lt_of_le n.isLt (by decide)))
theorem munpk (g x y n) : Statement (.munpk g x y n) :=
  of_slot g (by decide) (by decide) (mop_lt (by decide) (by decide) (Nat.lt_of_lt_of_le x.isLt (by decide)) (Nat.lt_of_lt_of_le y.isLt (by decide)) (Nat.lt_of_lt_of_le n.isLt (by decide)))
theorem mstat (g z h) : Statement (.mstat g z h) :=
  of_slot g (by decide) (by decide) (mop_lt (Nat.lt_of_lt_of_le z.isLt (by decide)) (by decide) (Nat.lt_of_lt_of_le h.isLt (by decide)) (by decide) (by decide))
theorem cnop (g) : Statement (.cnop g) :=
  of_slot g (by decide) (by decide) (by decide)
theorem cpyin (g h) : Statement (.cpyin g h) :=
  of_slot g (by decide) (by decide) (by have := h.isLt; omega)
theorem cpyout (g h) : Statement (.cpyout g h) :=
  of_slot g (by decide) (by decide) (by have := h.isLt; omega)
theorem cpyloc (g hd hs) : Statement (.cpyloc g hd hs) :=
  of_slot g (by decide) (by decide) (f3_lt (Nat.lt_of_lt_of_le hd.isLt (by decide)) (Nat.lt_of_lt_of_le hs.isLt (by decide)) (by decide))
theorem stage (g h c a) : Statement (.stage g h c a) :=
  of_slot g (by decide) (by decide) (f3_lt (Nat.lt_of_lt_of_le h.isLt (by decide)) (sop_code_lt c) (sop_code_lt a))
theorem sadv (g w p) : Statement (.sadv g w p) :=
  of_slot g (by decide) (by decide) (by have := p.isLt; have := w.isLt; omega)
theorem publish (g) : Statement (.publish g) :=
  of_slot g (by decide) (by decide) (by decide)
theorem catom (g v o c) : Statement (.catom g v o c) :=
  of_slot g (by decide) (by decide) (f3_lt (sop_code_lt v) (sop_code_lt o) (sop_code_lt c))
theorem cfill (g h a) : Statement (.cfill g h a) :=
  of_slot g (by decide) (by decide) (f3_lt (Nat.lt_of_lt_of_le h.isLt (by decide)) (sop_code_lt a) (by decide))
theorem knop (g) : Statement (.knop g) :=
  of_slot g (by decide) (by decide) (by decide)
theorem agset (g n p c) : Statement (.agset g n p c) :=
  of_slot g (by decide) (by decide) (f3_lt (Nat.lt_of_lt_of_le n.isLt (by decide)) (sop_code_lt p) (sop_code_lt c))
theorem agstr (g n s) : Statement (.agstr g n s) :=
  of_slot g (by decide) (by decide) (f3_lt (Nat.lt_of_lt_of_le n.isLt (by decide)) (sop_code_lt s) (by decide))
theorem agout (g d n) : Statement (.agout g d n) :=
  of_slot g (by decide) (by decide) (f3_lt (sop_code_lt d) (Nat.lt_of_lt_of_le n.isLt (by decide)) (by decide))
theorem agadd (g n a) : Statement (.agadd g n a) :=
  of_slot g (by decide) (by decide) (f3_lt (Nat.lt_of_lt_of_le n.isLt (by decide)) (sop_code_lt a) (by decide))
theorem agrd (g d n w) : Statement (.agrd g d n w) :=
  of_slot g (by decide) (by decide) (f3_lt (sop_code_lt d) (Nat.lt_of_lt_of_le n.isLt (by decide)) (agWord_code_lt w))
theorem agblk (g n w) : Statement (.agblk g n w) :=
  of_slot g (by decide) (by decide) (f3_lt (Nat.lt_of_lt_of_le n.isLt (by decide)) (by decide) (Nat.lt_of_lt_of_le w.isLt (by decide)))
theorem hld (g h a) : Statement (.hld g h a) :=
  of_slot g (by decide) (by decide) (f3_lt (Nat.lt_of_lt_of_le h.isLt (by decide)) (sop_code_lt a) (by decide))
theorem hst (g h a) : Statement (.hst g h a) :=
  of_slot g (by decide) (by decide) (f3_lt (Nat.lt_of_lt_of_le h.isLt (by decide)) (sop_code_lt a) (by decide))
theorem hsetf (g h f a) : Statement (.hsetf g h f a) :=
  of_slot g (by decide) (by decide) (f3_lt (Nat.lt_of_lt_of_le h.isLt (by decide)) (Nat.lt_of_lt_of_le f.isLt (by decide)) (sop_code_lt a))
theorem hgetf (g d f h) : Statement (.hgetf g d f h) :=
  of_slot g (by decide) (by decide) (f3_lt (sop_code_lt d) (Nat.lt_of_lt_of_le f.isLt (by decide)) (Nat.lt_of_lt_of_le h.isLt (by decide)))
theorem scl (g k a) : Statement (.scl g k a) :=
  of_slot g (by decide) (by decide) (f3_lt (Nat.lt_of_lt_of_le k.isLt (by decide)) (sop_code_lt a) (by decide))
theorem ymset (g n a) : Statement (.ymset g n a) :=
  of_slot g (by decide) (by decide) (f3_lt (Nat.lt_of_lt_of_le n.isLt (by decide)) (sop_code_lt a) (by decide))
theorem xmset (g n a) : Statement (.xmset g n a) :=
  of_slot g (by decide) (by decide) (f3_lt (Nat.lt_of_lt_of_le n.isLt (by decide)) (sop_code_lt a) (by decide))
theorem vmset (g n a) : Statement (.vmset g n a) :=
  of_slot g (by decide) (by decide) (f3_lt (Nat.lt_of_lt_of_le n.isLt (by decide)) (sop_code_lt a) (by decide))
theorem vmget (g d n) : Statement (.vmget g d n) :=
  of_slot g (by decide) (by decide) (f3_lt (sop_code_lt d) (Nat.lt_of_lt_of_le n.isLt (by decide)) (by decide))
theorem mkget (g d n) : Statement (.mkget g d n) :=
  of_slot g (by decide) (by decide) (f3_lt (sop_code_lt d) (Nat.lt_of_lt_of_le n.isLt (by decide)) (by decide))
theorem lnop (g) : Statement (.lnop g) :=
  of_slot g (by decide) (by decide) (by decide)
theorem route (g e c) : Statement (.route g e c) :=
  of_slot g (by decide) (by decide) (by have := e.isLt; have := c.isLt; omega)
theorem rtset (g e a) : Statement (.rtset g e a) :=
  of_slot g (by decide) (by decide) (f3_lt (Nat.lt_of_lt_of_le e.isLt (by decide)) (sop_code_lt a) (by decide))
theorem send (g a k) : Statement (.send g a k) :=
  of_slot g (by decide) (by decide) (f3_lt (Nat.lt_of_lt_of_le a.isLt (by decide)) (Nat.lt_of_lt_of_le k.isLt (by decide)) (by decide))
theorem recv (g a k chk lnk) : Statement (.recv g a k chk lnk) :=
  of_slot g (by decide) (by decide) (by have := a.isLt; have := k.isLt; have := Bool.toNat_lt chk; have := Bool.toNat_lt lnk; unfold f3; omega)
theorem ratom (g c o) : Statement (.ratom g c o) :=
  of_slot g (by decide) (by decide) (f3_lt (sop_code_lt c) (sop_code_lt o) (by decide))
theorem rld (g c) : Statement (.rld g c) :=
  of_slot g (by decide) (by decide) (f3_lt (sop_code_lt c) (by decide) (by decide))
theorem tagset (g tag sel) : Statement (.tagset g tag sel) :=
  of_slot g (by decide) (by decide) (by have := sel.isLt; have := tag.isLt; omega)
theorem xnop (g) : Statement (.xnop g) :=
  of_slot g (by decide) (by decide) (by decide)
theorem trap (g n) : Statement (.trap g n) :=
  of_slot g (by decide) (by decide) (by have := n.isLt; omega)
theorem rdcyc (g d) : Statement (.rdcyc g d) :=
  of_slot g (by decide) (by decide) (by have := sop_code_lt d; omega)
theorem rdwall (g d) : Statement (.rdwall g d) :=
  of_slot g (by decide) (by decide) (by have := sop_code_lt d; omega)
theorem waitsImm (g n) : Statement (.waitsImm g n) :=
  of_slot g (by decide) (by decide) (by have := n.isLt; omega)
theorem waitsReg (g a) : Statement (.waitsReg g a) :=
  of_slot g (by decide) (by decide) (by have := sop_code_lt a; omega)
theorem waitw (g j) : Statement (.waitw g j) :=
  of_slot g (by decide) (by decide) (by have := j.isLt; omega)
theorem realign (g) : Statement (.realign g) :=
  of_slot g (by decide) (by decide) (by decide)
theorem clkdiv (g dc dm dv dk) : Statement (.clkdiv g dc dm dv dk) :=
  of_slot g (by decide) (by decide) (by have := dk.isLt; have := dv.isLt; have := dm.isLt; have := dc.isLt; omega)
theorem pswitch (g n) : Statement (.pswitch g n) :=
  of_slot g (by decide) (by decide) (by have := n.isLt; omega)
theorem fidset (g v) : Statement (.fidset g v) :=
  of_slot g (by decide) (by decide) (by have := v.isLt; omega)
theorem wchk (g w p lead) : Statement (.wchk g w p lead) :=
  of_slot g (by decide) (by decide) (by have := lead.isLt; have := p.isLt; have := w.isLt; omega)
theorem repb (g n) : Statement (.repb g n) :=
  of_slot g (by decide) (by decide) (by have := n.isLt; omega)
theorem trec (g) : Statement (.trec g) :=
  of_slot g (by decide) (by decide) (by decide)
theorem tend (g) : Statement (.tend g) :=
  of_slot g (by decide) (by decide) (by decide)
theorem halt (g) : Statement (.halt g) :=
  of_slot g (by decide) (by decide) (by decide)
theorem bankpwr (g b st) : Statement (.bankpwr g b st) :=
  of_slot g (by decide) (by decide) (by have := bankSel_code_lt b; have := bankState_code_lt st; omega)
theorem launch (g d a) : Statement (.launch g d a) :=
  of_slot g (by decide) (by decide) (f3_lt (sop_code_lt d) (sop_code_lt a) (by decide))
theorem evwait (g d e v) : Statement (.evwait g d e v) :=
  of_slot g (by decide) (by decide) (f3_lt (sop_code_lt d) (sop_code_lt e) (sop_code_lt v))
theorem evsig (g op e v) : Statement (.evsig g op e v) :=
  of_slot g (by decide) (by decide) (f3_lt (evOp_code_lt op) (sop_code_lt e) (sop_code_lt v))
theorem lda (g d a) : Statement (.lda g d a) :=
  of_slot g (by decide) (by decide) (f3_lt (sop_code_lt d) (sop_code_lt a) (by decide))
theorem stl (g d a) : Statement (.stl g d a) :=
  of_slot g (by decide) (by decide) (f3_lt (sop_code_lt d) (sop_code_lt a) (by decide))
theorem fence (g t) : Statement (.fence g t) :=
  of_slot g (by decide) (by decide) (by have := Bool.toNat_lt t; omega)
theorem clrun (g d a b) : Statement (.clrun g d a b) :=
  of_slot g (by decide) (by decide) (f3_lt (sop_code_lt d) (sop_code_lt a) (sop_code_lt b))
theorem preempt (g d a b) : Statement (.preempt g d a b) :=
  of_slot g (by decide) (by decide) (f3_lt (sop_code_lt d) (sop_code_lt a) (sop_code_lt b))
theorem resume (g d a b) : Statement (.resume g d a b) :=
  of_slot g (by decide) (by decide) (f3_lt (sop_code_lt d) (sop_code_lt a) (sop_code_lt b))
theorem kill (g d a) : Statement (.kill g d a) :=
  of_slot g (by decide) (by decide) (f3_lt (sop_code_lt d) (sop_code_lt a) (by decide))
theorem lease (g d a b) : Statement (.lease g d a b) :=
  of_slot g (by decide) (by decide) (f3_lt (sop_code_lt d) (sop_code_lt a) (sop_code_lt b))
theorem eret (g) : Statement (.eret g) :=
  of_slot g (by decide) (by decide) (by decide)
theorem wread (g a c s) : Statement (.wread g a c s) :=
  of_slot g (by decide) (by decide) (f3_lt (sop_code_lt a) (sop_code_lt c) (sop_code_lt s))
theorem lanternLoadReturn (x0 x1) : Statement (.lanternLoadReturn x0 x1) := fun _ h => nomatch h
theorem evwaitWake (x0) : Statement (.evwaitWake x0) := fun _ h => nomatch h
theorem resultLands (x0) : Statement (.resultLands x0) := fun _ h => nomatch h
theorem matrixStepLands (x0) : Statement (.matrixStepLands x0) := fun _ h => nomatch h
theorem waitsExpiry (x0) : Statement (.waitsExpiry x0) := fun _ h => nomatch h
theorem waitwRelease (x0) : Statement (.waitwRelease x0) := fun _ h => nomatch h
theorem realignHoldEnd (x0 x1) : Statement (.realignHoldEnd x0 x1) := fun _ h => nomatch h
theorem bankWake (x0) : Statement (.bankWake x0) := fun _ h => nomatch h
theorem routeActExpiry (x0) : Statement (.routeActExpiry x0) := fun _ h => nomatch h
theorem meshWordArrival (x0) : Statement (.meshWordArrival x0) := fun _ h => nomatch h
theorem remoteAccessService (x0) : Statement (.remoteAccessService x0) := fun _ h => nomatch h
theorem seamBufferRelease (x0) : Statement (.seamBufferRelease x0) := fun _ h => nomatch h
theorem windowCheckEval (x0 x1) : Statement (.windowCheckEval x0 x1) := fun _ h => nomatch h
theorem regionFreeze (x0) : Statement (.regionFreeze x0) := fun _ h => nomatch h
theorem regionRelease (x0) : Statement (.regionRelease x0) := fun _ h => nomatch h
theorem faultHalt (x0) : Statement (.faultHalt x0) := fun _ h => nomatch h
theorem retry (x0) : Statement (.retry x0) := fun _ h => nomatch h
theorem copyLanding (x0 x1) : Statement (.copyLanding x0 x1) := fun _ h => nomatch h
theorem slotFillLands (x0 x1 x2) : Statement (.slotFillLands x0 x1 x2) := fun _ h => nomatch h
theorem slotDrainLands (x0 x1 x2) : Statement (.slotDrainLands x0 x1 x2) := fun _ h => nomatch h
theorem publishMerge (x0) : Statement (.publishMerge x0) := fun _ h => nomatch h
theorem publishPropagated (x0) : Statement (.publishPropagated x0) := fun _ h => nomatch h
theorem lamplighterSample (x0) : Statement (.lamplighterSample x0) := fun _ h => nomatch h
theorem grantLatch (x0 x1) : Statement (.grantLatch x0 x1) := fun _ h => nomatch h
theorem leaseExpiry (x0) : Statement (.leaseExpiry x0) := fun _ h => nomatch h
theorem energyUpdate (x0) : Statement (.energyUpdate x0) := fun _ h => nomatch h
theorem preemptEscalate (x0) : Statement (.preemptEscalate x0) := fun _ h => nomatch h
theorem saveComplete (x0) : Statement (.saveComplete x0) := fun _ h => nomatch h
theorem schedulerDecision : Statement .schedulerDecision := fun _ h => nomatch h
theorem launchLoad (x0) : Statement (.launchLoad x0) := fun _ h => nomatch h
theorem regionStart (x0) : Statement (.regionStart x0) := fun _ h => nomatch h
theorem replayCmdIssue (x0) : Statement (.replayCmdIssue x0) := fun _ h => nomatch h
theorem tapeEndResume (x0) : Statement (.tapeEndResume x0) := fun _ h => nomatch h
theorem launchComplete (x0) : Statement (.launchComplete x0) := fun _ h => nomatch h
theorem completionEvent (x0) : Statement (.completionEvent x0) := fun _ h => nomatch h
theorem tapeSetCopy (x0) : Statement (.tapeSetCopy x0) := fun _ h => nomatch h
theorem qtailWrite (x0 x1) : Statement (.qtailWrite x0 x1) := fun _ h => nomatch h
theorem queueEnable (x0) : Statement (.queueEnable x0) := fun _ h => nomatch h
theorem queueDisable (x0) : Statement (.queueDisable x0) := fun _ h => nomatch h
theorem queueRestart (x0) : Statement (.queueRestart x0) := fun _ h => nomatch h
theorem launchEntry (x0) : Statement (.launchEntry x0) := fun _ h => nomatch h
theorem waitEntry (x0) : Statement (.waitEntry x0) := fun _ h => nomatch h
theorem signalEntry (x0) : Statement (.signalEntry x0) := fun _ h => nomatch h
theorem skipif (x0) : Statement (.skipif x0) := fun _ h => nomatch h
theorem jump (x0) : Statement (.jump x0) := fun _ h => nomatch h
theorem callEntry (x0) : Statement (.callEntry x0) := fun _ h => nomatch h
theorem returnEntry (x0) : Statement (.returnEntry x0) := fun _ h => nomatch h
theorem copyEntry (x0) : Statement (.copyEntry x0) := fun _ h => nomatch h
theorem copyComplete (x0) : Statement (.copyComplete x0) := fun _ h => nomatch h
theorem witnessEntry (x0) : Statement (.witnessEntry x0) := fun _ h => nomatch h
theorem endEntry (x0) : Statement (.endEntry x0) := fun _ h => nomatch h
theorem entryUnblock (x0) : Statement (.entryUnblock x0) := fun _ h => nomatch h
theorem attestReportDone : Statement .attestReportDone := fun _ h => nomatch h
theorem linkRetryExhausted (x0) : Statement (.linkRetryExhausted x0) := fun _ h => nomatch h
theorem ptpSyncTimeout : Statement .ptpSyncTimeout := fun _ h => nomatch h
theorem powerOnBoot : Statement .powerOnBoot := fun _ h => nomatch h
theorem lanternStorePerformed (x0 x1) : Statement (.lanternStorePerformed x0 x1) := fun _ h => nomatch h
theorem hostEventWrite (x0 x1) : Statement (.hostEventWrite x0 x1) := fun _ h => nomatch h
theorem hostBar2Write (x0 x1) : Statement (.hostBar2Write x0 x1) := fun _ h => nomatch h
theorem hostBar2Read (x0 x1) : Statement (.hostBar2Read x0 x1) := fun _ h => nomatch h
theorem lanternStart (x0) : Statement (.lanternStart x0) := fun _ h => nomatch h
theorem lanternStop (x0) : Statement (.lanternStop x0) := fun _ h => nomatch h
theorem featureCommit : Statement .featureCommit := fun _ h => nomatch h
theorem pwrcapWrite (x0) : Statement (.pwrcapWrite x0) := fun _ h => nomatch h
theorem attestRequest : Statement .attestRequest := fun _ h => nomatch h
theorem registerWrite (x0 x1) : Statement (.registerWrite x0 x1) := fun _ h => nomatch h
theorem linkUp (x0 x1 x2) : Statement (.linkUp x0 x1 x2) := fun _ h => nomatch h
theorem linkDown (x0) : Statement (.linkDown x0) := fun _ h => nomatch h
theorem linkFlitReceive (x0 x1) : Statement (.linkFlitReceive x0 x1) := fun _ h => nomatch h
theorem linkResend (x0 x1) : Statement (.linkResend x0 x1) := fun _ h => nomatch h
theorem linkLockLoss (x0) : Statement (.linkLockLoss x0) := fun _ h => nomatch h
theorem ptpSync (x0) : Statement (.ptpSync x0) := fun _ h => nomatch h
theorem coolantChange (x0 x1) : Statement (.coolantChange x0 x1) := fun _ h => nomatch h
theorem inputPowerChange (x0) : Statement (.inputPowerChange x0) := fun _ h => nomatch h
theorem junctionOvertemp : Statement .junctionOvertemp := fun _ h => nomatch h
theorem thermalShutdown : Statement .thermalShutdown := fun _ h => nomatch h
theorem functionLevelReset : Statement .functionLevelReset := fun _ h => nomatch h
theorem firmwareImageVerify (x0 x1 x2) : Statement (.firmwareImageVerify x0 x1 x2) := fun _ h => nomatch h
theorem invalidBundle : Statement .invalidBundle := fun _ h => nomatch h
theorem softError (x0 x1) : Statement (.softError x0 x1) := fun _ h => nomatch h
theorem clusterSlip (x0 x1 x2) : Statement (.clusterSlip x0 x1 x2) := fun _ h => nomatch h

end FieldsFit

end Sys2Proof.Laws
end

