-- ==== Sys2Proof/Tests/Slice0.lean ====
section
/-! SUPPORT. Tests: words of the spec, ill-formed terms, worked examples of the spec, and for every statement a state and operands
that meet its hypotheses. -/

namespace Sys2Proof.Tests

open Sys2Proof.Machine

-- The proofs of this file run one after another: each evaluates a machine in the kernel.
set_option Elab.async false

/-! ## Small states -/

/-- An image with two pages of device memory, one switch point and one replay block. -/
def image : Image :=
  { flags := 0, entry := 0, maxintv := 1000, mapclass := 0, fidelity := 0, tthash := 0, divs := 0, code := []
    switches := [⟨0, 0, 0⟩, ⟨16, 16, 16⟩], power := [0, 0, 0, 1, 1, 2, 2, 2], loops := [], replays := [(⟨32, 32, 32⟩, 8)]
    patches := [], guards := []
    pages := [⟨0, 0, 0x10000, false, false, false, false, false, true, 0x10000⟩,
      ⟨0, 0x20000, 0x20000, true, false, false, false, false, true, 0x10000⟩], data := (0, []) }

/-- A running launch of that image. -/
def launch : Launch :=
  { newLaunch 1 0 { queue := 0, evt := 0, replay := false, serial := false, byInsn := false, w1 := 0, w2 := 0 }
      ⟨0, 0, 0, 3, 0, 0, 0, 9, 2, 1, none⟩ 0 image [] with state := .running }

/-- Its one cluster, in schedule cycle 100, with the divisors of a launch. -/
def cluster : Cluster :=
  { Cluster.none with scy := 100, clk := { Clock.reset with ctl := 100, mat := 100, vec := 100, cpy := 100 } }

/-- Its region. -/
def region : Region :=
  { launch := 1, nwx := 0, nwy := 0, cw := 1, ch := 1, tw := 16, th := 16, mods := 1, modIx := 0, phase := .running
    clusters := [cluster], stalls := [], haltReq := none, frozen := 0, nfrz := 0, wreq := 0, preq := 0, ebal := 0, echg := 0
    expiry := none, leaseLevel := none, wasFrozen := false, bphase := 0, publishes := [], poison := false, suppressed := false
    endAt := none, boundary := ⟨0, 0, 0, 0, []⟩, stopW := 0, fault := .zero, launchFault := 0, retrying := false, softReq := none, hardReq := false
    parkAfter := false }

/-- A core whose registers s1, s2, … hold the values given, the o file following. -/
def coreOf (vals : List Word) : Core :=
  { Core.reset with
    s := Vector.ofFn fun n => ⟨if n.val = 0 then 0 else vals.getD (n.val - 1) 0, false, false⟩
    q := Vector.replicate 16 ⟨true, false, false⟩ }

/-- A handle with some fields, numbered as R153 numbers them. -/
def handle (fs : List (Fin 19 × Nat)) : Handle := ⟨fs.foldl (fun b x => hSet b x.1 x.2) 0, false⟩

/-- A running tile with that core. -/
def tile (vals : List Word) : Tile :=
  { blankTile 0 0 0 0 0 0 0 0 0 0 (Vector.replicate 8 0) with run := .running, core := coreOf vals }

/-- The module with one placed region, in which that tile issues. -/
def onTile (t : Tile) : State :=
  { State.reset with
    agenda := [], tiles := [t], regions := [region], launches := [launch], focus := .tile 0, slot := 2, wcy := 5000 }

/-- Lantern 1 issues, with that core. -/
def onLantern (c : Core) : State :=
  { State.reset with
    agenda := [], focus := .lantern 1, slot := 1
    lanterns := State.reset.lanterns.set 1 { State.reset.lanterns.get 1 with core := c } }

/-- A slot of a tile of these states issues, whatever it names. -/
theorem issuesOn {t : Tile} {s : State} (tile : s.focusTile? = some t) (core : s.coreOf s.focus = some t.core)
    (live : t.core.suppressed = false) (q : (t.core.readQ 0).val = true ∧ (t.core.readQ 0).poison = false)
    (on : t.bank1.st = .on ∧ t.bank1.wake = none ∧ t.bank2.st = .on ∧ t.bank2.wake = none)
    (clean : ∀ d, (t.core.readS d).poison = false) (named control : List SOp) : IssuesOn s t 0 named control where
  core := core
  live := live
  guard := fun _ => q
  banks := fun u hu d _ => by
    rw [tile] at hu; cases hu
    obtain ⟨h1, h2, h3, h4⟩ := on
    unfold Tile.bankOff; rw [h1, h2, h3, h4]; split <;> rfl
  clean := fun _ d _ => clean d
  tile := tile

theorem coreOf_clean (vals : List Word) (d : SOp) : ((coreOf vals).readS d).poison = false := by
  cases d with
  | s n => simp only [Core.readS, coreOf, Vector.get_ofFn]; split <;> rfl
  | o n => simp [Core.readS, coreOf, Core.reset, Vector.get_eq_getElem, SReg.zero]
  | l => rfl

theorem onTile_focusTile (t : Tile) : (onTile t).focusTile? = some t := rfl
theorem onTile_coreOf (t : Tile) : (onTile t).coreOf (onTile t).focus = some t.core := rfl
theorem coreOf_suppressed (vals : List Word) : (coreOf vals).suppressed = false := rfl
theorem coreOf_q0 (vals : List Word) : ((coreOf vals).readQ 0).val = true ∧ ((coreOf vals).readQ 0).poison = false := ⟨rfl, rfl⟩

/-- Every slot issues on a tile with such a core and its banks on, its guard being q0. -/
theorem issues (t : Tile) (vals : List Word) (hc : t.core = coreOf vals) (h1 : t.bank1 = ⟨.on, none⟩)
    (h2 : t.bank2 = ⟨.on, none⟩) (named control : List SOp) : IssuesOn (onTile t) t 0 named control := by
  refine issuesOn (onTile_focusTile _) (onTile_coreOf _) ?_ ?_ ?_ ?_ named control
  · rw [hc]; exact coreOf_suppressed vals
  · rw [hc]; exact coreOf_q0 vals
  · rw [h1, h2]; exact ⟨rfl, rfl, rfl, rfl⟩
  · rw [hc]; exact coreOf_clean vals

theorem tile_issues (vals : List Word) (named control : List SOp) :
    IssuesOn (onTile (tile vals)) (tile vals) 0 named control :=
  issues (tile vals) vals rfl rfl rfl named control

/-- The same on a Lantern. -/
theorem issuesOnLantern (s : State) (n : Fin 4) (vals : List Word) (hf : s.focus = .lantern n)
    (hc : (s.lanterns.get n).core = coreOf vals) (named control : List SOp) :
    IssuesOnLantern s n 0 named control where
  core := by rw [hf]; rfl
  live := by rw [hc]; exact coreOf_suppressed vals
  guard := fun _ => by rw [hc]; exact coreOf_q0 vals
  banks := fun u hu _ _ => by rw [State.focusTile?, hf] at hu; exact absurd hu (by simp)
  clean := fun _ d _ => by rw [hc]; exact coreOf_clean vals d
  lantern := hf

/-- A slot of the issuing core's own kind. -/
theorem runs_of {s : State} {i : Instr} (h : (match encodeFields i with
    | some (cls, op, _, _) => opAvailable (agentKind s.focus) cls op
    | none => false) = true) : s.runs i := by
  unfold State.runs
  split at h
  · exact ⟨_, _, _, _, ‹_›, h⟩
  · cases h

/-! ## Decoding: one word per instruction, written out from its encoding (R33 to R54 and the entries of the instructions) -/

/-- Every word decodes to the instruction beside it. -/
def reads (xs : List (Nat × Instr)) : Bool := xs.all fun x => decodeTableWord 32 x.1 == some x.2

theorem test_words_S1 : reads [
    (0x0500_0000, .nop 5),
    (0x0506_3473, .add 5 (.s 35) (.s 17) (.o 3)),
    (0x050A_3473, .sub 5 (.s 35) (.s 17) (.o 3)),
    (0x050E_3473, .and 5 (.s 35) (.s 17) (.o 3)),
    (0x0512_3473, .or 5 (.s 35) (.s 17) (.o 3)),
    (0x0516_3473, .xor 5 (.s 35) (.s 17) (.o 3)),
    (0x051A_3473, .shl 5 (.s 35) (.s 17) (.o 3)),
    (0x051E_3473, .shr 5 (.s 35) (.s 17) (.o 3)),
    (0x0522_3473, .sra 5 (.s 35) (.s 17) (.o 3)),
    (0x0526_3473, .min 5 (.s 35) (.s 17) (.o 3)),
    (0x052A_3473, .max 5 (.s 35) (.s 17) (.o 3)),
    (0x052E_3473, .minu 5 (.s 35) (.s 17) (.o 3)),
    (0x0532_3473, .maxu 5 (.s 35) (.s 17) (.o 3)),
    (0x0536_3473, .mul 5 (.s 35) (.s 17) (.o 3)),
    (0x053A_3473, .mulh 5 (.s 35) (.s 17) (.o 3)),
    (0x053E_3473, .mulhu 5 (.s 35) (.s 17) (.o 3))] = true := by decide +kernel

theorem test_words_S2 : reads [
    (0x0542_3473, .div 5 (.s 35) (.s 17) (.o 3)),
    (0x0546_3473, .divu 5 (.s 35) (.s 17) (.o 3)),
    (0x054A_3473, .rem 5 (.s 35) (.s 17) (.o 3)),
    (0x054E_3473, .remu 5 (.s 35) (.s 17) (.o 3)),
    (0x0552_346D, .addi 5 (.s 35) (.s 17) 45),
    (0x0556_346D, .andi 5 (.s 35) (.s 17) 45),
    (0x055A_346D, .ori 5 (.s 35) (.s 17) 45),
    (0x055E_346D, .xori 5 (.s 35) (.s 17) 45),
    (0x0562_346D, .shli 5 (.s 35) (.s 17) 45),
    (0x0566_346D, .shri 5 (.s 35) (.s 17) 45),
    (0x056A_346D, .srai 5 (.s 35) (.s 17) 45),
    (0x056E_3ABC, .li 5 (.s 35) 0xabc),
    (0x0572_3ABC, .lis 5 (.s 35) 0xabc),
    (0x0576_3473, .sel 5 (.s 35) (.s 17) (.o 3)),
    (0x057A_3440, .clz 5 (.s 35) (.s 17)),
    (0x057E_3440, .popc 5 (.s 35) (.s 17))] = true := by decide +kernel

theorem test_words_S3 : reads [
    (0x0582_D473, .cmp 5 5 .geu (.s 17) (.o 3)),
    (0x0586_D46D, .cmpi 5 5 .geu (.s 17) 45),
    (0x058A_F2C0, .plog 5 5 .andn 9 6),
    (0x058E_FACE, .pbt 5 2 0xface),
    (0x0592_0440, .pbr 5 2 (.s 17)),
    (0x0596_0000, .br 5 2),
    (0x059A_0000, .call 5 2),
    (0x059C_0000, .ret 5),
    (0x05A2_FACE, .jal 5 2 0xface),
    (0x05A6_0000, .jr 5 2),
    (0x05A9_1ABC, .loop 5 (.s 17) 0xabc),
    (0x05AE_346D, .ldB 5 (.s 35) (.s 17) 45),
    (0x05B2_346D, .ldH 5 (.s 35) (.s 17) 45),
    (0x05B6_346D, .ldW 5 (.s 35) (.s 17) 45),
    (0x05BA_346D, .ldD 5 (.s 35) (.s 17) 45),
    (0x05BE_346D, .ldBU 5 (.s 35) (.s 17) 45)] = true := by decide +kernel

theorem test_words_S4 : reads [
    (0x05C2_346D, .ldHU 5 (.s 35) (.s 17) 45),
    (0x05C6_346D, .ldWU 5 (.s 35) (.s 17) 45),
    (0x05CA_346D, .stB 5 (.s 35) (.s 17) 45),
    (0x05CE_346D, .stH 5 (.s 35) (.s 17) 45),
    (0x05D2_346D, .stW 5 (.s 35) (.s 17) 45),
    (0x05D6_346D, .stD 5 (.s 35) (.s 17) 45),
    (0x05DA_3473, .atomAdd 5 (.s 35) (.s 17) (.o 3)),
    (0x05DE_3473, .atomMin 5 (.s 35) (.s 17) (.o 3)),
    (0x05E2_3473, .atomMax 5 (.s 35) (.s 17) (.o 3)),
    (0x05E6_3473, .atomAnd 5 (.s 35) (.s 17) (.o 3)),
    (0x05EA_3473, .atomOr 5 (.s 35) (.s 17) (.o 3)),
    (0x05EE_3473, .atomXor 5 (.s 35) (.s 17) (.o 3)),
    (0x05F2_3473, .atomSwap 5 (.s 35) (.s 17) (.o 3)),
    (0x05F6_3473, .cas 5 (.s 35) (.s 17) (.o 3)),
    (0x05FA_3051, .mfs 5 (.s 35) 0x051),
    (0x05FD_1051, .mts 5 0x051 (.s 17))] = true := by decide +kernel

theorem test_words_V1 : reads [
    (0x1500_0000, .vnop 5),
    (0x1506_3DA7, .vadd 5 .i32 3 13 10 7),
    (0x150A_3DA7, .vsub 5 .i32 3 13 10 7),
    (0x150E_3DA7, .vmul 5 .i32 3 13 10 7),
    (0x1513_BDA7, .vfma 5 .f32 3 13 10 7),
    (0x1516_3DA7, .vmin 5 .i32 3 13 10 7),
    (0x151A_3DA7, .vmax 5 .i32 3 13 10 7),
    (0x151E_3DA0, .vabs 5 .i32 3 13 10),
    (0x1522_3DA0, .vneg 5 .i32 3 13 10),
    (0x1526_3DA7, .vadds 5 .i32 3 13 10 7),
    (0x152A_3DA7, .vsubs 5 .i32 3 13 10 7),
    (0x152E_3DA7, .vand 5 .i32 3 13 10 7),
    (0x1532_3DA7, .vor 5 .i32 3 13 10 7),
    (0x1536_3DA7, .vxor 5 .i32 3 13 10 7),
    (0x153A_3DA7, .vshl 5 .i32 3 13 10 7),
    (0x153E_3DA7, .vshr 5 .i32 3 13 10 7)] = true := by decide +kernel

theorem test_words_V2 : reads [
    (0x1542_3DA7, .vsra 5 .i32 3 13 10 7),
    (0x1546_35A7, .vcmpeq 5 .i32 3 5 10 7),
    (0x154A_35A7, .vcmpne 5 .i32 3 5 10 7),
    (0x154E_35A7, .vcmplt 5 .i32 3 5 10 7),
    (0x1552_35A7, .vcmple 5 .i32 3 5 10 7),
    (0x1556_3DA7, .vsel 5 .i32 3 13 10 7),
    (0x155B_BDA5, .vcvt 5 .f32 3 13 10 .bf16),
    (0x155F_BDA0, .vexp2 5 .f32 3 13 10),
    (0x1563_BDA0, .vlog2 5 .f32 3 13 10),
    (0x1567_BDA0, .vrcp 5 .f32 3 13 10),
    (0x156B_BDA0, .vrsq 5 .f32 3 13 10),
    (0x156F_BDA0, .vsqrt 5 .f32 3 13 10),
    (0x1572_35A2, .vred 5 .i32 3 5 10 .max),
    (0x1576_35A1, .vredx 5 .i32 3 5 10 .max),
    (0x157A_3DA5, .vscan 5 .i32 3 13 10 5),
    (0x157E_3DA5, .vcomp 5 .i32 3 13 10 5)] = true := by decide +kernel

theorem test_words_V3 : reads [
    (0x1582_3DA5, .vexpd 5 .i32 3 13 10 5),
    (0x1586_3DA7, .vperm 5 .i32 3 13 10 7),
    (0x158A_3D50, .vbcast 5 .i32 3 13 5),
    (0x158E_3DA0, .vmov 5 .i32 3 13 10),
    (0x1592_3D50, .viota 5 .i32 3 13 5),
    (0x1596_35A0, .vany 5 .i32 3 5 10),
    (0x159A_35A0, .vall 5 .i32 3 5 10),
    (0x159E_3560, .vpopm 5 .i32 3 5 6),
    (0x15A2_35A0, .vmask 5 .i32 3 5 10),
    (0x15A6_3D27, .vrand 5 .i32 3 13 2 7),
    (0x15AA_3DA0, .vsrt 5 .i32 3 13 10),
    (0x15AE_3DA7, .vmrg 5 .i32 3 13 10 7),
    (0x15B2_3DA7, .vgath 5 .i32 3 13 10 7),
    (0x15B6_3DA7, .vscat 5 .i32 3 13 10 7)] = true := by decide +kernel

theorem test_words_M1 : reads [
    (0x2500_0000, .mnop 5),
    (0x2506_0000, .mclr 5 1),
    (0x250B_CDDA, .mmul 5 1 3 19 14 26),
    (0x250F_4DD4, .mmulb 5 1 .g16 19 14 10),
    (0x2513_D400, .mout 5 1 3 21),
    (0x2517_D400, .moutr 5 1 3 21),
    (0x251B_D400, .maddr 5 1 3 21),
    (0x251C_2FDA, .mpack 5 11 30 26),
    (0x2520_797A, .munpk 5 30 11 26),
    (0x2526_5400, .mstat 5 1 21)] = true := by decide +kernel

theorem test_words_C1 : reads [
    (0x3500_0000, .cnop 5),
    (0x3505_5000, .cpyin 5 21),
    (0x3509_5000, .cpyout 5 21),
    (0x350D_D480, .cpyloc 5 29 18),
    (0x3511_5A91, .stage 5 21 (.s 42) (.s 17)),
    (0x3514_001E, .sadv 5 14 1),
    (0x3518_0000, .publish 5),
    (0x351F_8DAA, .catom 5 .l (.o 6) (.s 42)),
    (0x3521_5440, .cfill 5 21 (.s 17))] = true := by decide +kernel

theorem test_words_K1 : reads [
    (0x4500_0000, .knop 5),
    (0x4504_C26A, .agset 5 12 (.s 9) (.s 42)),
    (0x4508_C840, .agstr 5 12 (.s 33)),
    (0x450E_3300, .agout 5 (.s 35) 12),
    (0x4510_C440, .agadd 5 12 (.s 17)),
    (0x4516_3303, .agrd 5 (.s 35) 12 .pos),
    (0x4518_C002, .agblk 5 12 2),
    (0x451D_5440, .hld 5 21 (.s 17)),
    (0x4521_5440, .hst 5 21 (.s 17)),
    (0x4525_5491, .hsetf 5 21 18 (.s 17)),
    (0x452A_3495, .hgetf 5 (.s 35) 18 21),
    (0x452C_2440, .scl 5 2 (.s 17)),
    (0x4530_3440, .ymset 5 3 (.s 17)),
    (0x4534_3440, .xmset 5 3 (.s 17)),
    (0x4538_6440, .vmset 5 6 (.s 17)),
    (0x453E_3180, .vmget 5 (.s 35) 6)] = true := by decide +kernel

theorem test_words_K2 : reads [
    (0x4542_3180, .mkget 5 (.s 35) 6)] = true := by decide +kernel

theorem test_words_L1 : reads [
    (0x5500_0000, .lnop 5),
    (0x5506_EB67, .route 5 11 0x2b67),
    (0x5508_B440, .rtset 5 11 (.s 17)),
    (0x550C_A080, .send 5 10 2),
    (0x5510_A380, .recv 5 10 2 true true),
    (0x5516_AD80, .ratom 5 (.s 42) (.o 6)),
    (0x551A_A000, .rld 5 (.s 42)),
    (0x551C_02C5, .tagset 5 0xc5 2)] = true := by decide +kernel

theorem test_words_X1 : reads [
    (0x6500_0000, .xnop 5),
    (0x6504_00C5, .trap 5 0xc5),
    (0x650A_3000, .rdcyc 5 (.s 35)),
    (0x650E_3000, .rdwall 5 (.s 35)),
    (0x6511_CAFE, .waitsImm 5 0x1cafe),
    (0x6512_0440, .waitsReg 5 (.s 17)),
    (0x6514_0006, .waitw 5 6),
    (0x6518_0000, .realign 5),
    (0x651C_7231, .clkdiv 5 1 3 2 7),
    (0x6520_0ABC, .pswitch 5 0xabc),
    (0x6524_0005, .fidset 5 5),
    (0x652B_4B7E, .wchk 5 14 1 0x1a5b),
    (0x652C_0ABC, .repb 5 0xabc),
    (0x6530_0000, .trec 5),
    (0x6534_0000, .tend 5),
    (0x6538_0000, .halt 5)] = true := by decide +kernel

theorem test_words_X2 : reads [
    (0x653C_000A, .bankpwr 5 .bank2 .off),
    (0x6582_3440, .launch 5 (.s 35) (.s 17)),
    (0x6586_31B8, .evwait 5 (.s 35) (.s 6) .l),
    (0x6588_21B8, .evsig 5 .max (.s 6) .l),
    (0x658E_3440, .lda 5 (.s 35) (.s 17)),
    (0x6592_3440, .stl 5 (.s 35) (.s 17)),
    (0x6594_0001, .fence 5 true),
    (0x659A_3473, .clrun 5 (.s 35) (.s 17) (.o 3)),
    (0x659E_3473, .preempt 5 (.s 35) (.s 17) (.o 3)),
    (0x65A2_3473, .resume 5 (.s 35) (.s 17) (.o 3)),
    (0x65A6_3440, .kill 5 (.s 35) (.s 17)),
    (0x65AA_3473, .lease 5 (.s 35) (.s 17) (.o 3)),
    (0x65AC_0000, .eret 5),
    (0x65B1_1AA1, .wread 5 (.s 17) (.s 42) (.s 33))] = true := by decide +kernel

/-! ## Witnesses: S class -/

/-- s1 is 8, s2 is −1, s3 the least number, s4 the last doubleword of scratchpad, s5 the first address beyond it, s6 is 3,
s7 an address with a bit above the counters' 24, s8 the last aligned line. -/
def vals1 : List Word :=
  [8, 0xFFFF_FFFF_FFFF_FFFF, 0x8000_0000_0000_0000, 0x1F_FFF8, 0x20_0000, 3, 0x100_0000, 0x1F_FFC0]

def tile1 : Tile := tile vals1
def state1 : State := onTile tile1
def core1 : Core := tile1.core

theorem issues1 (named control : List SOp) : IssuesOn state1 tile1 0 named control := tile_issues vals1 named control
theorem issuesCore1 (named control : List SOp) : Issues state1 core1 0 named control := (issues1 named control).toIssues

theorem witness_IntegerResults :
    ∃ f, twoSource (.div 0 (.s 9) (.s 3) (.s 2)) = some f ∧ Issues state1 core1 f.g [f.a, f.b, f.d] [] :=
  ⟨_, rfl, issuesCore1 _ _⟩

theorem witness_ImmediateAndUnaryResults :
    (∃ g d a n, withImmediate (.addi 0 (.s 9) (.s 1) 0x20) = some (g, d, a, n) ∧ Issues state1 core1 g [a, d] []) ∧
    Issues state1 core1 0 [.s 9] [] ∧ Issues state1 core1 0 [.s 9, .s 9] [] ∧ Issues state1 core1 0 [.s 3, .s 9] [] :=
  ⟨⟨_, _, _, _, rfl, issuesCore1 _ _⟩, issuesCore1 _ _, issuesCore1 _ _, issuesCore1 _ _⟩

theorem witness_SelectAndPredicateResults :
    (state1.coreOf state1.focus = some core1 ∧ core1.suppressed = false ∧ state1.banksOn [.s 1, .s 2, .o 3]) ∧
    Issues state1 core1 0 [.s 2, .s 3] [] ∧
    (true = true ↔ comparison .geu (state1.operand core1 0 (.s 2)).val (state1.operand core1 1 (.s 3)).val) ∧
    (false = true ↔ comparison .eq (state1.operand core1 0 (.s 2)).val (BitVec.ofInt 64 (0x1F : BitVec 6).toInt)) ∧
    Issues state1 core1 0 [.s 2] [] ∧ Issues state1 core1 0 [] [] ∧
    (true = true ↔ predicateLogic .andn ((core1.readQ 2).val = true) ((core1.readQ 1).val = true)) := by
  have h := issuesCore1 [.s 1, .s 2, .o 3] []
  refine ⟨⟨h.core, h.live, h.banks⟩, issuesCore1 _ _, ?_, ?_, issuesCore1 _ _, issuesCore1 _ _, ?_⟩
  · unfold comparison; decide +kernel
  · unfold comparison; decide +kernel
  · unfold predicateLogic; decide +kernel

theorem witness_TargetsAndTransfers :
    Issues state1 core1 0 [] [] ∧ Issues state1 core1 0 [.s 2] [.s 2] ∧ core1.xfer = none ∧ core1.cdepth ≠ 15 :=
  ⟨issuesCore1 _ _, issuesCore1 _ _, rfl, by decide +kernel⟩

/-- A core in the body of one level, in which a second level fits. -/
def loopCore : Core := { core1 with loops := [⟨0, 64, 2, false, 0⟩] }
def loopTile : Tile := { tile1 with core := loopCore }

theorem loop_issues (named control : List SOp) : IssuesOn (onTile loopTile) loopTile 0 named control :=
  issuesOn (onTile_focusTile _) (onTile_coreOf _) (by decide +kernel) (coreOf_q0 vals1) ⟨rfl, rfl, rfl, rfl⟩ (coreOf_clean vals1) _ _

theorem witness_LoopOpensLevel :
    Issues (onTile loopTile) loopCore 0 [.s 6] [.s 6] ∧ loopCore.xfer = none ∧ loopCore.loops.length < 8 ∧
      ∀ l, loopCore.loops.head? = some l → l.cdepth = loopCore.cdepth →
        (onTile loopTile).bundleAfter loopCore (2 : BitVec 12).toNat ≤ l.last := by
  refine ⟨(loop_issues _ _).toIssues, rfl, by decide +kernel, ?_⟩
  intro l hl _
  cases hl
  decide +kernel

theorem witness_LoadsAndStoresOnTiles :
    (∃ g d a n size signed, loadForm (.ldB 0 (.s 9) (.s 5) 0x3F) = some (g, d, a, n, size, signed) ∧
      IssuesOn state1 tile1 g [a, d] [] ∧
      addressFits (state1.operand core1 0 a) (offsetAddress (state1.operand core1 0 a).val n size) size) ∧
    (∃ g d a n size, storeForm (.stD 0 (.s 2) (.s 4) 0) = some (g, d, a, n, size) ∧ IssuesOn state1 tile1 g [a, d] [] ∧
      addressFits (state1.operand core1 0 a) (offsetAddress (state1.operand core1 0 a).val n size) size) :=
  ⟨⟨_, _, _, _, _, _, rfl, issues1 _ _, by unfold addressFits; decide +kernel⟩,
    _, _, _, _, _, rfl, issues1 _ _, by unfold addressFits; decide +kernel⟩

theorem witness_AtomicsOnTiles :
    (∃ g op d a b, atomForm (.cas 0 (.s 9) (.s 4) (.s 1)) = some (g, op, d, a, b) ∧
      IssuesOn state1 tile1 g ([a, b] ++ (if op = .cas then [d] else []) ++ [d]) [] ∧
      addressFits (state1.operand core1 0 a) (state1.operand core1 0 a).val 8) :=
  ⟨_, _, _, _, _, rfl, issues1 _ _, by unfold addressFits; decide +kernel⟩

theorem witness_SpecialRegisterAccesses :
    (Issues state1 core1 0 [.s 9] [] ∧ ∃ v taint, state1.readSpecial 0x0A3 = some (v, taint)) ∧
    Issues state1 core1 0 [.s 2] [.s 2] ∧ sregOn (agentKind state1.focus) 0x003 = true ∧
    ¬hasSpecial (agentKind state1.focus) (0x004 : BitVec 12).toNat ∧ hasSpecial .lantern (0x004 : BitVec 12).toNat ∧
    (state1.focusTile? = some tile1 ∧ state1.region? tile1.region = some region) ∧
    (∀ t, state1.focusTile? = some t → (state1.region? t.region).isSome = true) ∧ (onLantern core1).focus = .lantern 1 :=
  ⟨⟨issuesCore1 _ _, _, _, rfl⟩, issuesCore1 _ _, by decide +kernel, by simp [hasSpecial, agentKind, state1, onTile], by simp [hasSpecial],
    ⟨rfl, rfl⟩, fun _ h => by cases h; rfl, rfl⟩

/-! ## Witnesses: K class -/

theorem witness_AddressRegisterAccesses :
    (∃ g d v p, addressRead (.agout 0 (.s 9) 15) tile1 state1.env.scy = some (g, d, v, p) ∧ IssuesOn state1 tile1 g [d] []) ∧
    (∃ g a eff, addressWrite (.vmset 0 7 (.s 2)) tile1 (state1.operand core1 0 (.s 2)).val = some (g, a, eff) ∧
      IssuesOn state1 tile1 g [a] [a]) ∧
    IssuesOn state1 tile1 0 [.s 5, .s 8] [.s 5, .s 8] ∧
    (state1.operand core1 0 (.s 5)).val.toNat < 2 ^ 24 ∧ (state1.operand core1 1 (.s 8)).val.toNat < 2 ^ 24 ∧
    2 ^ 24 ≤ (state1.operand core1 0 (.s 7)).val.toNat ∧ IssuesOn state1 tile1 0 [.s 7] [.s 7] ∧
    (state1.operand core1 0 (.s 7)).val.toNat < 2 ^ 48 ∧ 2 ^ 48 ≤ (state1.operand core1 0 (.s 3)).val.toNat ∧
    IssuesOn state1 tile1 0 [] [] :=
  ⟨⟨_, _, _, _, rfl, issues1 _ _⟩, ⟨_, _, _, rfl, issues1 _ _⟩, issues1 _ _, by decide +kernel, by decide +kernel,
    by decide +kernel, issues1 _ _, by decide +kernel, by decide +kernel, issues1 _ _⟩

theorem witness_HandleAndScaleAccesses :
    IssuesOn state1 tile1 0 [.s 8] [] ∧ addressFits (state1.operand core1 0 (.s 8)) (state1.operand core1 0 (.s 8)).val 32 ∧
    (state1.operand core1 0 (.s 0)).poison = false ∧ (state1.operand core1 0 (.s 0)).val.toNat + 256 ≤ 2 ^ 21 ∧
    (state1.operand core1 0 (.s 0)).val.toNat % 32 = 0 :=
  ⟨issues1 _ _, by unfold addressFits; decide +kernel, by decide +kernel, by decide +kernel, by decide +kernel⟩

/-- A generator with no count bits set, at the start of its sequence. -/
theorem witness_GeneratorWalks : Gen.reset.ii = 0 ∧ Gen.reset.oi = 0 := ⟨rfl, rfl⟩

/-! ## Witnesses: V, M, C and L classes -/

/-- A tile whose generators stand at lines of scratchpad, the last of them at the last line, with handles of a plane tensor, an
element tensor, a raw tile, a byte tensor and a transfer. -/
def tile2 : Tile :=
  { tile1 with
    gens := Vector.ofFn fun n => { Gen.reset with base := if n.val = 15 then 0x1FFFC0 else BitVec.ofNat 22 (64 * n.val) }
    handles := Vector.ofFn fun n => match n.val with
      | 1 => handle [(0, 0x1000), (1, 0x10), (2, 32), (3, 64), (4, 64), (5, 7), (6, 1), (10, 2048), (12, 0x8000)]
      | 2 => handle [(0, 0x2000), (1, 7), (2, 32), (3, 64), (4, 256)]
      | 3 => handle [(0, 0x4000), (1, 0x20), (2, 32), (3, 32), (4, 2304)]
      | 4 => handle [(0, 0x8000), (1, 1), (2, 33), (3, 32), (4, 64)]
      | 5 => handle [(0, 0x9000), (1, 7), (2, 1), (3, 1), (4, 64), (13, 0x1FFFE0), (14, 1), (15, 6)]
      | _ => handle [(0, 64), (1, 7), (2, 1), (3, 1), (4, 64)] }
def state2 : State := onTile tile2

theorem issues2 (named control : List SOp) : IssuesOn state2 tile2 0 named control :=
  issues tile2 vals1 rfl rfl rfl named control

/-- The same tile with both vector units taken in the present vector cycle. -/
def tile3 : Tile := { tile2 with vbusy := Vector.replicate 2 (some 100) }
def state3 : State := onTile tile3

theorem witness_VectorIssues :
    ∃ f, vectorForm (.vfma 0 .f32 1 15 0 1) = some f ∧ IssuesOn state2 tile2 f.g (f.os.map .o) [] ∧
      tile2.vbusy.get state2.vectorUnit ≠ some state2.env.vec ∧
      (∀ x ∈ (state2.latch tile2 (.vfma 0 .f32 1 15 0 1) f).operands, operandFits x) ∧
      IssuesOn state3 tile3 f.g (f.os.map .o) [] ∧ tile3.vbusy.get state3.vectorUnit = some state3.env.vec :=
  ⟨_, rfl, issues2 _ _, by decide +kernel, by unfold operandFits; decide +kernel,
    issues tile3 vals1 rfl rfl rfl _ _, by decide +kernel⟩

/-- A context of VMUL.i8 over the last enabled element of a line. -/
def ctx8 : VCtx := ⟨.vmul 0 .i8 0 1 2 3, 0, 64, 128, 2 ^ 63, .rne, .zero, .zero⟩

theorem witness_VectorIntegerLanes :
    vfmt (vTypeOf ctx8.op) = .int 8 true ∧ 63 < 64 / vwidth (vTypeOf ctx8.op) ∧ laneInteger ctx8.op 1 (-128) 127 0 = some (-16256) :=
  ⟨rfl, by decide +kernel, rfl⟩

/-- The forms whose results have a clause of their own, with the first or the last lane enabled. -/
def formOf (i : Instr) (mask : BitVec 64) : VCtx := ⟨i, 64, 128, 192, mask, .rne, .zero, .zero⟩
def gather9 : VCtx := formOf (.vgath 0 .i32 0 1 2 3) (0xF000_0000_0000_0000)

theorem witness_vector_forms :
    (∀ i < 64, (laneResult ctx8 [] i).isSome = true) ∧
    (∀ i < 16, (laneResult (formOf (.vsqrt 0 .f32 0 1 2) 1) [] i).isSome = true) ∧
    (∀ i < 64, (laneResult (formOf (.vadds 0 .n8 0 1 2 3) 1) [] i).isSome = true) ∧
    (maskForm (.vcmplt 0 .f32 0 1 2 3) (vfmt .f32) 0x7FC00000 0).isSome = true ∧ (maskForm (.vmask 0 .i8 0 1 2) (vfmt .i8) 1 0).isSome = true ∧
    (∃ bits signed, vfmt .n16 = .int bits signed) ∧ (∃ f, vfmt .bf16 = .flt f) ∧
    (isNaN (vfmt .f32) 0x7FC00000 = true ∧ isNaN (vfmt .f32) 0 = false ∧ 15 ∈ (formOf (.vredx 0 .f32 0 1 2 .max) (0xF000_0000_0000_0000)).lanes) ∧
    (formOf (.vredx 0 .f32 0 1 2 .max) 0).lanes = [] ∧
    (∃ j : BitVec 64, (formOf (.vpopm 0 .i8 1 2 3) 1).addrA = (j.toNat : Int)) ∧
    ([⟨0, 0, 0, 15⟩] : List KeyPair) = pairsOf (0xF000_0000_0000_0000) 0 Line.none Line.none ∧
    ([⟨0, 0, 0, 15⟩] : List KeyPair).Pairwise (fun p q => pairBefore .i32 p q = true) := by
  refine ⟨by decide +kernel, by decide +kernel, by decide +kernel, by decide +kernel, by decide +kernel, ⟨_, _, rfl⟩, ⟨_, rfl⟩,
    by decide +kernel, by decide +kernel, ⟨64, rfl⟩, by decide +kernel, List.pairwise_singleton _ _⟩

theorem extreme_lane : extremeLane .min (vfmt .i8) (fun _ => 5) [3, 7] 3 := by
  unfold extremeLane; decide +kernel

/-- A gather whose one enabled element is the last word of scratchpad, one outside, and one of a poisoned index. -/
theorem witness_gather :
    (∀ c < 4, c = 3 → gather9.served [] c = []) ∧ gather9.lanes = [15] ∧ gather9.table = 64 ∧
    gather9.table + (List.replicate 16 0x7FFEF).getD 15 0 * 4 + 4 = 2 ^ 21 ∧
    2 ^ 21 < gather9.table + (List.replicate 16 0x7FFF0).getD 15 0 * 4 + 4 ∧
    (((List.replicate 64 true).drop (15 * 4)).take 4).any id = true ∧
    (let got : List (Nat × Byte × Bool) := (List.range 4).map fun j => (64 + j, tile1.sp.byte (64 + j), false)
     ∀ k ∈ gather9.lanes, ∀ j < 4, (got.find? fun y => y.1 == (gather9.table + ([] : List Nat).getD k 0 * 4) + j).isSome = true) := by
  decide +kernel

/-- Corrupted partials of a step of one plane each: on a dim slice with a mismatch, and on a bright slice. -/
theorem witness_residues :
    let g : PlaneGeo := ⟨1, false, 64⟩
    let a : PlaneRow := ⟨[1], false, [(some 0, false)]⟩
    (∀ k ∈ dimSlices 1, ∀ p ∈ slicePairs g g 3 k, (g.signed = true → p.1 + 1 ≠ g.planes) ∧ (g.signed = true → p.2 + 1 ≠ g.planes)) ∧
    (let e : Residue := ⟨0, 3, 0, 0, 0, 5⟩
     e.slice.val ∈ dimSlices 1 ∧ (e.formed - pairSum g g a a (slicePairs g g 3 e.slice.val)) % 7 ≠ 0) ∧
    (⟨0, 2, 0, 0, 1, 5⟩ : Residue).slice.val ∉ dimSlices 1 := by decide +kernel

theorem witness_MatrixStepIsExact :
    ∃ ga gb : PlaneGeo, ga.planes ≤ 8 ∧ gb.planes ≤ 8 ∧ ga.w ∈ [8, 16, 32, 64] ∧ gb.w ∈ [8, 16, 32, 64] ∧ ga.planes = 8 ∧ gb.w = 64 :=
  ⟨⟨8, true, 8⟩, ⟨1, false, 64⟩, by decide, by decide, by decide, by decide, rfl, rfl⟩

theorem plane_fits : handleFits (tile2.handles.get 1) ∧ planeFits (tile2.handles.get 1).bits 1 true := by
  refine ⟨?_, ⟨_, rfl, ?_⟩⟩
  · unfold handleFits; decide +kernel
  · decide +kernel

theorem element_fits (n : Fin 32) (h : n ∈ ([2, 3, 4, 5] : List (Fin 32))) : handleFits (tile2.handles.get n) := by
  revert n; unfold handleFits; decide +kernel

theorem multiplies : state2.multiplies tile2 0 (tile2.handles.get 1) (tile2.handles.get 1) 1 := by
  obtain ⟨h, f, hf, h1, h2, h3, h4⟩ := plane_fits
  exact ⟨h, h, ⟨f, hf, h1, h2, (nomatch ·), h4⟩, ⟨f, hf, h1, h2, (nomatch ·), h4⟩, by decide +kernel, by decide +kernel⟩

/-- Rows of an output, of a raw tile, of a byte tensor and of MPACK. -/
theorem witness_matrix_rows :
    keysRise 0 AccSet.reset.cells = true ∧ (AccSet.reset.cell 1023).dcnt ≤ 127 ∧
    (∃ f, elemFmt (hFmt (tile2.handles.get 2).bits) = some f) ∧ state2.tile? 0 = some tile2 ∧ (∀ w, (tile2.sp.mark w).err = .clean) ∧
    (∃ f, planeFmt (hFmt (tile2.handles.get 1).bits) = some f ∧ f.scaled = true) ∧
    min 32 (hRows (tile2.handles.get 1).bits) % (64 / blockW (tile2.handles.get 1).bits) = 0 :=
  ⟨by decide +kernel, by decide +kernel, ⟨_, rfl⟩, rfl, fun _ => rfl, ⟨_, rfl, by decide +kernel⟩, by decide +kernel⟩

theorem witness_MatrixMultiplyIssues :
    IssuesOn state2 tile2 0 [] [] ∧
    state2.multiplies tile2 0 (tile2.handles.get 1) (tile2.handles.get 1) ((0 : Fin 32).val + 1) ∧
    state2.multiplies tile2 0 (tile2.handles.get 1) (tile2.handles.get 1) (hCols (tile2.handles.get 1).bits / 64) :=
  ⟨issues2 _ _, multiplies, by
    have e : hCols (tile2.handles.get 1).bits / 64 = 1 := by decide +kernel
    rw [e]; exact multiplies⟩

theorem witness_MatrixMoveIssues :
    IssuesOn state2 tile2 0 [] [] ∧ outFits (tile2.handles.get 2) ∧ rawFits (tile2.handles.get 3) ∧
    statFits (tile2.handles.get 4) ∧ packFits (tile2.handles.get 1) (tile2.handles.get 2) ((0 : Fin 32).val + 1) true ∧
    packFits (tile2.handles.get 1) (tile2.handles.get 2) ((0 : Fin 32).val + 1) false := by
  have h2 := element_fits 2 (by decide)
  have h3 := element_fits 3 (by decide)
  have h4 := element_fits 4 (by decide)
  obtain ⟨h, f, hf, g1, g2, g3, g4⟩ := plane_fits
  refine ⟨issues2 _ _, ⟨h2, _, rfl, ?_⟩, ⟨h3, ?_⟩, ⟨h4, ?_⟩, ⟨h, h2, ⟨f, hf, g1, g2, g3, g4⟩, ⟨_, rfl, ?_⟩, ?_⟩,
    ⟨h, h2, ⟨f, hf, g1, g2, (nomatch ·), g4⟩, ⟨_, rfl, ?_⟩, ?_⟩⟩
  all_goals decide +kernel

/-- A tile with operands of copies, streams, atomics and the mesh: s1 is the last doubleword of a page that is not phased, s2 a
CATOM of code ADD with a return at the top of scratchpad, s3 and s4 the words of a STAGE of one transfer, s5 one of none, s6
the greatest word of an RLD, s7 that of a RATOM, s8 a route value, s9 one with an input that no switch has. -/
def vals4 : List Word :=
  [0x2_FFF8, 0x1F_FFF8_08, 0x1_0000_0000, 0x7FFF_FFFF_FFFF, 0x40, 0x1F_FFFF, 0xDF_FFFF, 0xC040_0000_0000_7FFF, 0xD040_0000_0000_0000]
def window4 : Window :=
  { Window.reset with mode := .streaming, cp := 1, st := ((Vector.replicate 2 .empty).set 1 .ready), n := 2, released := 1 }
def tile4 : Tile :=
  { tile2 with core := coreOf vals4, wins := tile2.wins.set 15 window4, site := 9, tx := 15, ty := 4 }
def state4 : State := onTile tile4
theorem issues4 (named control : List SOp) : IssuesOn state4 tile4 0 named control :=
  issues tile4 vals4 rfl rfl rfl named control

/-- The same with a command of its bundle whose list is unread. -/
def tile5 : Tile := { tile4 with accs := [⟨⟨.ctl, 101⟩, 1, 0, 100, 100, .dlist (.cpyin 0 5) 0 0 .zero .zero 0⟩] }

theorem list_fits : listFits (tile4.handles.get 5) (tile4.handles.get 5) := by
  refine ⟨element_fits 5 (by decide), element_fits 5 (by decide), ?_⟩
  decide +kernel

theorem witness_CopiesReadTheirList :
    (∃ g h k srcs, copyForm (.stage 0 5 (.s 3) (.s 4)) = some (g, h, k, srcs) ∧ IssuesOn state4 tile4 g srcs srcs ∧
      listFits (tile4.handles.get h) (tile4.handles.get k) ∧
      stageBad (state4.operand tile4.core 0 (.s 3)).val (state4.operand tile4.core 1 (.s 4)).val = false ∧
      ∃ bits, patchBva state4.slot state4.imms.isSome tile4.rep.pd (tile4.handles.get h).bits = .ok bits) ∧
    isStage (.stage 0 5 (.s 5) (.s 4)) = true ∧ handleFits (tile4.handles.get 5) ∧
    stageBad (state4.operand tile4.core 0 (.s 5)).val (state4.operand tile4.core 1 (.s 4)).val = true :=
  ⟨⟨_, _, _, _, rfl, issues4 _ _, list_fits, by decide +kernel, _, rfl⟩, rfl, element_fits 5 (by decide), by decide +kernel⟩

theorem witness_StreamsAtomicsAndPublishes :
    IssuesOn state4 tile4 0 [] [] ∧ tile4.waitsBehind state4.env.scy = false ∧
    (let x := tile4.wins.get 15
     x.mode = .streaming ∧ x.cp = 1 ∧ x.released ≠ x.n ∧ x.st.get 1 = (if x.out then .empty else .ready)) ∧
    (IssuesOn (onTile tile5) tile5 0 [] [] ∧ IssuesOn (onTile tile5) tile5 0 [.s 1, .o 0, .s 2] [.s 1, .o 0, .s 2] ∧
      tile5.waitsBehind (onTile tile5).env.scy = true) ∧
    IssuesOn state4 tile4 0 [.s 1, .o 0, .s 2] [.s 1, .o 0, .s 2] ∧
    (let va := (state4.operand tile4.core 0 (.s 1)).val.toNat
     let k := (state4.operand tile4.core 2 (.s 2)).val.toNat
     let ret := k / 2 ^ 8 % 2 ^ 22
     atomOfCode (k % 8) = some .add ∧ k < 2 ^ 30 ∧ va % 8 = 0 ∧ (∃ p, pageOf (state4.pagesOf tile4) va = some p ∧ p.ro = false ∧
       k.testBit 3 = true ∧ p.phased = false ∧ p.rd = true ∧ ret + 8 = 2 ^ 21 ∧ ret % 8 = 0 ∧ p.kind ≠ 2) ∧
     tile4.roomFor (Fin.ofNat 16 (k / 16)) 0 8) := by
  refine ⟨issues4 _ _, by decide +kernel, by decide +kernel, ⟨issues tile5 vals4 rfl rfl rfl _ _, issues tile5 vals4 rfl rfl rfl _ _, by decide +kernel⟩,
    issues4 _ _, by decide +kernel, by decide +kernel, by decide +kernel, ⟨_, rfl, by decide +kernel⟩, ?_⟩
  unfold Tile.roomFor; decide +kernel

/-- The same tile where that page is in the host's memory and the atomics of the host are accepted, host-coherent or phased. -/
def state4Host (hc : Bool) : State :=
  { state4 with
    launches := [{ launch with img := { image with pages := image.pages.map fun p => { p with kind := 2, hc := hc } } }]
    mod_ := { state4.mod_ with ready := true, acc := 0x40 } }
theorem witness_CatomOnHostPages : (∀ hc : Bool, IssuesOn (state4Host hc) tile4 0 [.s 1, .o 0, .s 2] [.s 1, .o 0, .s 2]) ∧
    (∀ hc : Bool, (pageOf ((state4Host hc).pagesOf tile4) 0x2_FFF8).any fun p => p.kind == 2 && p.hc == hc && !p.ro) ∧
    (∀ hc : Bool, (state4Host hc).mod_.hostAtoms = true) ∧ atomOfCode 0 = some .add :=
  ⟨fun _ => issuesOn rfl rfl rfl (coreOf_q0 vals4) ⟨rfl, rfl, rfl, rfl⟩ (coreOf_clean vals4) _ _, by decide +kernel,
    by decide +kernel, rfl⟩

theorem witness_MeshIssues :
    IssuesOn state4 tile4 0 [] [] ∧ IssuesOn state4 tile4 0 [.s 8] [.s 8] ∧
    (∀ k < 4, segmentFits ((state4.operand tile4.core 0 (.s 8)).val.toNat / 2 ^ (16 * k) % 2 ^ 16)) ∧
    ¬segmentFits ((state4.operand tile4.core 0 (.s 9)).val.toNat / 2 ^ (16 * 3) % 2 ^ 16) ∧
    lineFits (tile4.gens.get 15) ∧ (state4.portOf tile4).isSome = true ∧
    IssuesOn state4 tile4 0 [.s 7, .o 0] [.s 7] ∧
    (state4.operand tile4.core 0 (.s 7)).val.toNat < 2 ^ 24 ∧ (state4.operand tile4.core 0 (.s 7)).val.toNat / 2 ^ 21 ≠ 7 ∧
    IssuesOn state4 tile4 0 [.s 6] [.s 6] ∧ (state4.operand tile4.core 0 (.s 6)).val.toNat < 2 ^ 21 := by
  refine ⟨issues4 _ _, issues4 _ _, ?_, ?_, ?_, by decide +kernel, issues4 _ _, by decide +kernel, by decide +kernel,
    issues4 _ _, by decide +kernel⟩
  · unfold segmentFits; decide +kernel
  · unfold segmentFits; decide +kernel
  · unfold lineFits; decide +kernel

/-! ## Witnesses: X class of tiles -/

/-- A cluster before its first cycle is over, and one whose grant asks for the variant relaxed and whose idle generator is ready. -/
def cluster0 : Cluster := { cluster with scy := 0 }
def clusterSwitch : Cluster :=
  { cluster with scy := 356, grant := 7, clk := { cluster.clk with target := some (image.divsOf 2), progAt := 0, pend := none } }

/-- The state of a tile in a region with that cluster and a launch that replays or not. -/
def placed (t : Tile) (k : Cluster) (replay : Bool) : State :=
  { onTile t with regions := [{ region with clusters := [k] }], launches := [{ launch with replay := replay }] }

/-- s1 is the cycle after the present bundle's, s2 the present bundle's. -/
def vals5 : List Word := [101, 100]
def tile6 : Tile := tile vals5
theorem placed_issues (t : Tile) (hc : t.core = coreOf vals5) (h1 : t.bank1.st = .on ∧ t.bank1.wake = none)
    (h2 : t.bank2.st = .on ∧ t.bank2.wake = none) (s : State) (hs : s.focusTile? = some t)
    (he : s.coreOf s.focus = some t.core) (named control : List SOp) : IssuesOn s t 0 named control :=
  issuesOn hs he (by rw [hc]; exact coreOf_suppressed _) (by rw [hc]; exact coreOf_q0 _) ⟨h1.1, h1.2, h2.1, h2.2⟩
    (by rw [hc]; exact coreOf_clean _) _ _
theorem issues6 (k : Cluster) (replay : Bool) (named control : List SOp) :
    IssuesOn (placed tile6 k replay) tile6 0 named control :=
  placed_issues tile6 rfl ⟨rfl, rfl⟩ ⟨rfl, rfl⟩ _ rfl rfl _ _

theorem witness_CountersAndWaits :
    let s := placed tile6 cluster false
    let r := placed tile6 cluster0 false
    (∀ named control, IssuesOn s tile6 0 named control) ∧ (∀ named control, IssuesOn r tile6 0 named control) ∧
    namesCycle s.env.scy 101 101 ∧ s.env.scy + s.env.dc ≤ 101 ∧
    namesCycle s.env.scy 65637 (-65435) ∧ (-65435 : Int) < s.env.scy + s.env.dc ∧ namesCycle s.env.scy 65636 65636 ∧
    s.env.scy + s.env.dc = (s.operand tile6.core 0 (.s 1)).val.toNat ∧
    (s.operand tile6.core 0 (.s 2)).val.toNat < s.env.scy + s.env.dc ∧ r.env.scy = 0 ∧ s.env.scy ≠ 0 := by
  refine ⟨issues6 _ _, issues6 _ _, ?_, by decide +kernel, ?_, by decide +kernel, ?_, by decide +kernel, by decide +kernel,
    by decide +kernel, by decide +kernel⟩ <;> (unfold namesCycle; decide +kernel)

/-- Banks in retention and off. -/
def tile7 : Tile := { tile6 with bank1 := ⟨.ret, none⟩, bank2 := ⟨.off, none⟩ }

theorem witness_ClocksChecksAndBanks :
    let s := placed tile6 cluster false
    let r := placed tile7 cluster false
    IssuesOn s tile6 0 [] [] ∧ (∃ l, s.launchOf tile6.region = some l) ∧
    (∀ c ∈ tile6.mctx, c.multiplies s.env.mat = true → c.signDim (0 : Fin 8).val = false) ∧
    96 ≤ (96 : BitVec 13).toNat ∧ (tile6.wins.get 15).chk = none ∧ ((tile4.wins.get 15).mode = .streaming ∧ (tile4.wins.get 15).chk = none) ∧
    (tile6.bankOf .bank1).st = .on ∧ IssuesOn r tile7 0 [] [] ∧ (tile7.bankOf .bank1).st = .ret ∧ (tile7.bankOf .bank2).st = .off ∧
    s.inFlight tile6 .bank1 = none ∧ r.inFlight tile7 .bank2 = none := by
  refine ⟨issues6 _ _ _ _, ⟨_, rfl⟩, by decide +kernel, by decide +kernel, by decide +kernel, by decide +kernel, rfl, ?_, rfl, rfl,
    by decide +kernel, by decide +kernel⟩
  exact { core := rfl, live := by decide +kernel, guard := fun _ => by decide +kernel, tile := rfl,
          banks := fun _ _ _ h => absurd h (by simp), clean := fun _ _ h => absurd h (by simp) }

/-- That tile in replay, with some words in its Taper memory from word 8 on. -/
def tileTape (ws : List Nat) : Tile :=
  { tile6 with tape := Mem.empty.write 64 (ws.flatMap (leBytes 8)) false, rep := { tile6.rep with active := true, pos := 9, stateAt := some 8 } }

theorem ok_of {ε α : Type} {r : Except ε α} (h : (match r with | .ok _ => true | .error _ => false) = true) : ∃ a, r = .ok a := by
  cases r with
  | ok a => exact ⟨a, rfl⟩
  | error _ => cases h
theorem error_of {ε α : Type} {r : Except ε α} (h : (match r with | .ok _ => false | .error _ => true) = true) :
    ∃ e, r = .error e := by
  cases r with
  | ok _ => cases h
  | error e => exact ⟨e, rfl⟩

theorem witness_SwitchPointsAndEnds :
    let s := placed tile6 cluster false
    let r := placed tile6 clusterSwitch false
    let w : State := { r with imms := some [] }
    (IssuesOn s tile6 0 [] [] ∧ s.launchOf tile6.region = some { launch with replay := false }) ∧
    (IssuesOn r tile6 0 [] [] ∧ r.launchOf tile6.region = some { launch with replay := false }) ∧
    (IssuesOn w tile6 0 [] [] ∧ w.launchOf tile6.region = some { launch with replay := false }) ∧
    (1 : BitVec 12).toNat < image.switches.length ∧
    switchStays image (s.cluster tile6) tile6.core s.env.scy = true ∧
    switchStays image (r.cluster tile6) tile6.core r.env.scy = false ∧
    switchStays image (w.cluster tile6) tile6.core w.env.scy = false ∧ s.imms = none ∧ r.imms = none ∧ w.imms ≠ none ∧
    (w.imms ≠ none ∧ (∃ u, (tileTape [6 <<< 60 + 1 <<< 44 + 5 <<< 32, 0, 0, 0, 0, 0]).switchTape 1 2 356 1 0 = .ok u) ∧
      ∃ k, (tileTape [0]).switchTape 1 2 356 1 0 = .error k) ∧
    (1 : BitVec 12).toNat = image.replays.length ∧ tile6.core.nested = false ∧ s.publishSuppressed tile6.core = false :=
  ⟨⟨issues6 _ _ _ _, rfl⟩, ⟨issues6 _ _ _ _, rfl⟩, ⟨placed_issues tile6 rfl ⟨rfl, rfl⟩ ⟨rfl, rfl⟩ _ rfl rfl _ _, rfl⟩,
    by decide +kernel, by decide +kernel, by decide +kernel, by decide +kernel, rfl, rfl, by simp,
    ⟨by simp, ok_of (by decide +kernel), error_of (by decide +kernel)⟩, by decide +kernel, by decide +kernel, by decide +kernel⟩

/-- A tile whose tape was accepted. -/
def tile8 : Tile := { tile6 with rep := { tile6.rep with ready := true } }

theorem witness_RecordingStartsAndEnds :
    let s := placed tile6 cluster false
    let r := placed tile6 cluster true
    let w := placed tile8 cluster true
    IssuesOn s tile6 0 [] [] ∧ (∃ l, s.launchOf tile6.region = some l ∧ l.replay = false) ∧
    IssuesOn r tile6 0 [] [] ∧ (∃ l, r.launchOf tile6.region = some l ∧ l.replay = true ∧ tile6.rep.ready = false) ∧
    IssuesOn w tile8 0 [] [] ∧ (∃ l, w.launchOf tile8.region = some l ∧ l.replay = true ∧ tile8.rep.ready = true) :=
  ⟨issues6 _ _ _ _, ⟨_, rfl, rfl⟩, issues6 _ _ _ _, ⟨_, rfl, rfl, rfl⟩,
    placed_issues tile8 rfl ⟨rfl, rfl⟩ ⟨rfl, rfl⟩ _ rfl rfl _ _, ⟨_, rfl, rfl, rfl⟩⟩

/-- TREC at the start of an interval whose image has one slot of its template and one guard, and later. -/
theorem witness_recording_starts :
    let img : Image := { image with patches := [(15, 0)], guards := [(4095, 0)] }
    let s : State := { placed tile6 cluster0 false with launches := [{ launch with img := img }] }
    IssuesOn s tile6 0 [] [] ∧ s.launchOf tile6.region = some { launch with img := img } ∧ launch.replay = false ∧ s.env.scy = 0 ∧
      tile6.rec_.recBit = false ∧ tile6.tape.wf = true ∧ (tile6.core.readQ 0).taint = false ∧ (∀ p ∈ img.patches, p.1 < 16) ∧
      (∀ p ∈ img.guards, p.1 < 2 ^ 12) ∧ 8 + (prologue { launch with img := img }).length ≤ 2 ^ 15 ∧
      (placed tile6 cluster false).env.scy ≠ 0 ∧ (firstWaitw image.code image.entry).isSome = false ∧ tile6.rec_.exists_ = false :=
  ⟨placed_issues tile6 rfl ⟨rfl, rfl⟩ ⟨rfl, rfl⟩ _ rfl rfl _ _, rfl, rfl, rfl, rfl, by decide +kernel, rfl, by decide +kernel,
    by decide +kernel, by decide +kernel, by decide +kernel, by decide +kernel, rfl⟩

/-- A tile whose tape is open, in the last cycle but one that END can name, and the same with an invalid tape. -/
def recorder9 : Recorder :=
  { Recorder.reset with recBit := true, exists_ := true, open_ := true, span := true, last := 0, nrec := 2 ^ 15 - 72 }
def tile9 : Tile := { tile1 with rec_ := recorder9, core := { core1 with q := core1.q.set 2 ⟨true, true, false⟩ } }
def tile10 : Tile := { tile9 with core := { tile9.core with s := tile9.core.s.set 5 ⟨64, true, false⟩ } }

theorem witness_recording_ends :
    (tile9.rec_.recBit = true ∧ tile9.rec_.exists_ = true ∧ tile9.rec_.open_ = true ∧ tile9.rec_.span = true ∧
      tile9.rec_.reason = 0 ∧ tile9.rec_.depth = 0 ∧ tile9.rec_.body = [] ∧ tile9.tape.wf = true) ∧
    (tile9.core.loops = [] ∧ tile9.core.cdepth = 0 ∧ tile9.core.sLast ≤ (onTile tile9).env.ctl ∧
      tile9.rec_.last ≤ (onTile tile9).env.scy ∧ (onTile tile9).env.scy - tile9.rec_.last ≤ 4095 ∧
      8 + tile9.rec_.nrec + 64 ≤ 2 ^ 15) ∧
    loopCore.loops ≠ [] ∧ (onTile tile9).env.ctl < ({ tile9.core with sLast := 105 } : Core).sLast ∧
    ({ recorder9 with reason := 8 } : Recorder).reason ≠ 0 ∧ ({ recorder9 with recBit := false } : Recorder).recBit = false ∧
    ((onTile tile9).launchOf tile9.region).isSome = true ∧ (tile9.core.readQ 0).taint = false := by decide +kernel

theorem recorded_of {t : Tile} {i : Instr} (hr : (onTile t).runs i) (live : t.core.suppressed = false)
    (tape : t.rec_.exists_ = true ∧ t.rec_.open_ = true ∧ t.rec_.span = true ∧ t.rec_.recBit = true ∧ t.rec_.reason = 0)
    (h : (match exec i (onTile t) with | .next u => u.trap.isNone && (u.tile? 0).isSome | _ => false) = true) :
    ∃ u x, RunsRecorded (onTile t) u 0 t x i := by
  split at h
  · rename_i u hu
    rw [Bool.and_eq_true, Option.isNone_iff_eq_none, Option.isSome_iff_exists] at h
    obtain ⟨hc, x, hx⟩ := h
    exact ⟨u, x, { focus := rfl, here := rfl, runs := hr, live := live, fetched := rfl, begins := rfl, next := hu, clean := hc,
                   after := hx, tape := tape }⟩
  · cases h

/-- Slots of an open tape: one with a tainted guard, one with a tainted source, an atomic, and one whose value is recorded. -/
theorem witness_recorded_slots :
    (∃ u x, RunsRecorded (onTile tile9) u 0 tile9 x (.vmset 2 7 (.s 2))) ∧ (tile9.core.readQ 2).taint = true ∧
    (∃ u x, RunsRecorded (onTile tile10) u 0 tile10 x (.vmset 0 7 (.s 5))) ∧
    (taintedSources (.vmset 0 7 (.s 5)) = some (0x0006, [.s 5]) ∧ (tile10.core.readS (.s 5)).taint = true) ∧
    (∃ u x, RunsRecorded (onTile tile9) u 0 tile9 x (.atomAdd 0 (.s 9) (.s 4) (.s 1))) ∧
    (atomForm (.atomAdd 0 (.s 9) (.s 4) (.s 1))).isSome = true ∧
    (∃ u x, RunsRecorded (onTile tile9) u 0 tile9 x (.vmset 0 7 (.s 2))) ∧
    (∃ opr, encodeFields (.vmset 0 7 (.s 2)) = some (4, 0x0E, 0, opr) ∧
      recordedForm (.vmset 0 7 (.s 2)) = some (4, 0x0E, opr)) ∧
    (∀ d ∈ recordedSources (.vmset 0 7 (.s 2)), (tile9.core.readS d).taint = false) := by
  refine ⟨recorded_of (runs_of (by decide +kernel)) (by decide +kernel) (by decide +kernel) (by decide +kernel), by decide +kernel,
    recorded_of (runs_of (by decide +kernel)) (by decide +kernel) (by decide +kernel) (by decide +kernel), by decide +kernel,
    recorded_of (runs_of (by decide +kernel)) (by decide +kernel) (by decide +kernel) (by decide +kernel), rfl,
    recorded_of (runs_of (by decide +kernel)) (by decide +kernel) (by decide +kernel) (by decide +kernel), ⟨_, rfl, rfl⟩,
    by decide +kernel⟩

theorem witness_TrapTakesItsFault : Issues state1 core1 0 [] [] := issuesCore1 _ _

/-! ## A small image (R66) -/

/-- The words of the image of R66: header, directory, the code of five bundles, the loop table and an empty replay table, with
CRC-32C of the sections, hash and digest computed outside the model. -/
def demoWords : List Nat :=
  [0x5754564B, 0x03030003, 0x00000108, 0x00000000, 0x00000000, 0x00000003, 0x00000005, 0x00000000,
   0x00000000, 0x00000000, 0x58D119AC, 0x9ED4DD10, 0x00000000, 0x00000000, 0x00000000, 0x00000000,
   0x00000003, 0x00000000, 0x00000000, 0x00000000, 0x6A9BA689, 0x532F769B, 0xCE68EE3D, 0x63A0FCDC,
   0x5AC70F98, 0xBC16265D, 0xF415BB0A, 0x5580025A, 0x2DE76FAC, 0xC5F6C2DC, 0x82738D9C, 0xC2E66F4B,
   0x00000001, 0x000000B0, 0x00000050, 0x16CEA95C, 0x00000020, 0x00000100, 0x00000008, 0x6318D993,
   0x00000030, 0x00000108, 0x00000000, 0x00000000, 0x00F81010, 0x10000000, 0x10000000, 0xA0000000,
   0x00000000, 0x10000000, 0x10000000, 0xA0000000, 0x00000000, 0x10000000, 0x10000000, 0xA0000000,
   0x00502045, 0x10000000, 0x10000000, 0xA0000000, 0x60380000, 0x10000000, 0x10000000, 0xA0000000,
   0x00010000, 0x00000000]
def demoBytes : List Byte := demoWords.flatMap (leBytes 4)

/-- Descriptor, entries of LAUNCH, and a page table that maps the first 2 MiB pages onto themselves. -/
def demoDescriptor : List Byte := leBytes 8 0x300000 ++ List.replicate 24 0 ++ leBytes 8 0x280000 ++ List.replicate 88 0
def launchEntry (flags va : Nat) : List Byte := [1, BitVec.ofNat 8 flags] ++ List.replicate 6 0 ++ leBytes 8 va ++ List.replicate 16 0
def pageDram : Mem := (Mem.empty.write 0x100000 [1, 0x10, 0x10] false).write 0x101000 [3] false
def demoDram : Mem := (pageDram.write 0x300000 demoBytes false).write 0x2FFF80 demoDescriptor false

/-! ## Witnesses: Lanterns -/

/-- s1 is the last doubleword of SRAM, s2 an event counter in control space, s3 a device address that is mapped, s4 one of the
top space, s5 one that is not aligned, s6 a device address that is not mapped, s7 and s8 the last event and the number after it,
s9 to s11 entries of LAUNCH in SRAM: one that is accepted, one with SERIAL, one whose descriptor is not mapped; s12 is 1, s13
the last 64 bytes of SRAM. -/
def vals9 : List Word :=
  [0x4000_0000_000F_FFF8, 0x8000_0000_0002_0000, 0x28_0000, 0xC000_0000_0000_0000, 0x4000_0000_0000_0004, 0x8000_0000_0000,
   1023, 1024, 0x4000_0000_0000_0040, 0x4000_0000_0000_0060, 0x4000_0000_0000_0080, 1, 0x4000_0000_000F_FFC0]
def sram9 : Mem :=
  ((Mem.empty.write 0x40 (launchEntry 0 0x2FFF80) false).write 0x60 (launchEntry 2 0x2FFF80) false).write 0x80
    (launchEntry 0 0x8000_0000_0000) false
def core9 : Core := coreOf vals9
def lantern9 : Lantern := { Lantern.reset with core := core9, run := true, mmuOn := true, root := 0x100, sram := sram9 }
def withLantern (l : Lantern) : State :=
  { State.reset with
    agenda := [], focus := .lantern 1, slot := 1, dram := pageDram, lanterns := State.reset.lanterns.set 1 l }
def state9 : State := withLantern lantern9

theorem issues9 (named control : List SOp) : IssuesOnLantern state9 1 0 named control :=
  issuesOnLantern state9 1 vals9 rfl rfl named control

/-- The value of a register as an address: space and offset. -/
def spaceOf (n : Fin 48) : Nat := (state9.operand core9 0 (.s n)).val.toNat / 2 ^ 62
def offOf (n : Fin 48) : Nat := (state9.operand core9 0 (.s n)).val.toNat % 2 ^ 62

/-- The four kinds of address, with their checks, for an access of eight bytes. -/
theorem lantern_addresses :
    (spaceOf 1 = 1 ∧ offOf 1 + 8 = 2 ^ 20 ∧ offOf 1 % 8 = 0 ∧ lantern9.sram.uncorrectables (offOf 1) 8 = []) ∧
    (spaceOf 2 = 2 ∧ offOf 2 + 8 ≤ 2 ^ 24 ∧ offOf 2 % 8 = 0) ∧
    (spaceOf 3 = 0 ∧ offOf 3 + 8 ≤ 2 ^ 48 ∧ offOf 3 % 8 = 0) ∧ spaceOf 4 = 3 ∧
    (spaceOf 5 = 1 ∧ offOf 5 % 8 ≠ 0 ∧ offOf 5 + 8 ≤ 2 ^ 20) ∧ (spaceOf 6 = 0 ∧ offOf 6 + 8 ≤ 2 ^ 48) := by decide +kernel

/-- A request that is answered, and one that is not. -/
theorem of_ok {σ α : Type} {r : σ × Except Nat α} (P : σ → α → Bool)
    (h : (match r.2 with | .ok a => P r.1 a | .error _ => false) = true) : ∃ t a, r = (t, .ok a) ∧ P t a = true := by
  obtain ⟨t, a | a⟩ := r
  · cases h
  · exact ⟨t, a, rfl, h⟩
theorem of_error {σ α : Type} {r : σ × Except Nat α} (h : (match r.2 with | .ok _ => false | .error _ => true) = true) :
    ∃ t c, r = (t, .error c) := by
  obtain ⟨t, a | a⟩ := r
  · exact ⟨t, a, rfl⟩
  · cases h

/-- What the translations answer: pages of frames, read and written, or a fault. -/
theorem lantern_translations :
    let bad : State := { state9 with dram := pageDram.write 0x280000 (List.replicate 8 1) true }
    let reads (t : State) (ps : List (Place × Nat)) : Bool := (t.readDev 1 ps).2.isSome
    let acts (t : State) (ps : List (Place × Nat)) : Bool := (t.atomDev 1 ps .cas 1 5).2.isSome && ps.all fun x => x.1.kind != 2
    (∃ t ps, state9.begun.piecesVa 1 (offOf 3) 8 false = (t, .ok ps) ∧ reads t ps = true) ∧
    (∃ t ps, bad.begun.piecesVa 1 (offOf 3) 8 false = (t, .ok ps) ∧ (!reads t ps) = true) ∧
    (∃ t ps, state9.begun.piecesVa 1 (offOf 3) 8 true = (t, .ok ps) ∧ acts t ps = true) ∧
    (∃ t ps, bad.begun.piecesVa 1 (offOf 3) 8 true = (t, .ok ps) ∧ (!acts t ps) = true) ∧
    (∃ t code, state9.begun.piecesVa 1 (offOf 6) 8 false = (t, .error code)) ∧
    (∃ t code, state9.begun.piecesVa 1 (offOf 6) 8 true = (t, .error code)) :=
  ⟨of_ok _ (by decide +kernel), of_ok (fun (t : State) ps => !(t.readDev 1 ps).2.isSome) (by decide +kernel), of_ok _ (by decide +kernel),
    of_ok (fun (t : State) (ps : List (Place × Nat)) => !((t.atomDev 1 ps .cas 1 5).2.isSome && ps.all fun x => x.1.kind != 2)) (by decide +kernel),
    of_error (by decide +kernel), of_error (by decide +kernel)⟩

theorem witness_LoadsOnLanterns :
    ∀ n, n ∈ ([1, 2, 3, 4, 6] : List (Fin 48)) → ∃ g d a k size signed,
      loadForm (.ldD 0 (.s 20) (.s n) 0) = some (g, d, a, k, size, signed) ∧ IssuesOnLantern state9 1 g [a, d] [] ∧
      size = 8 ∧ offsetAddress (state9.operand core9 0 a).val k size = (state9.operand core9 0 (.s n)).val := by
  intro n hn
  refine ⟨_, _, _, _, _, _, rfl, issues9 _ _, rfl, ?_⟩
  revert n; decide +kernel

theorem witness_StoresOnLanterns :
    ∀ n, n ∈ ([1, 2, 3, 4, 6] : List (Fin 48)) → ∃ g d a k size,
      storeForm (.stD 0 (.s 20) (.s n) 0) = some (g, d, a, k, size) ∧ IssuesOnLantern state9 1 g [a, d] [] ∧
      size = 8 ∧ offsetAddress (state9.operand core9 0 a).val k size = (state9.operand core9 0 (.s n)).val := by
  intro n hn
  refine ⟨_, _, _, _, _, rfl, issues9 _ _, rfl, ?_⟩
  revert n; decide +kernel

theorem witness_AtomicsOnLanterns :
    ∀ n : Fin 48, ∃ g op d a b, atomForm (.cas 0 (.s 20) (.s n) (.s 12)) = some (g, op, d, a, b) ∧
      IssuesOnLantern state9 1 g ([a, b] ++ (if op = .cas then [d] else []) ++ [d]) [] :=
  fun _ => ⟨_, _, _, _, _, rfl, issues9 _ _⟩

theorem witness_OrderedAccesses :
    (∀ n : Fin 48, IssuesOnLantern state9 1 0 [.s n, .s 20] [.s n] ∧ IssuesOnLantern state9 1 0 [.s 20, .s n] [.s n]) ∧
    IssuesOnLantern state9 1 0 [.s 7, .s 12] [.s 7, .s 12] ∧ IssuesOnLantern state9 1 0 [.s 8, .s 12] [.s 8, .s 12] ∧
    (state9.operand core9 0 (.s 7)).val.toNat = 1023 ∧ (state9.operand core9 0 (.s 8)).val.toNat = 1024 :=
  ⟨fun _ => ⟨issues9 _ _, issues9 _ _⟩, issues9 _ _, issues9 _ _, by decide +kernel, by decide +kernel⟩

/-- The same with the image in memory. -/
def stateDemo : State := { state9 with dram := demoDram }

theorem of_entry {r : State × Except Trap (List Byte)} {q : Nat} (P : State → LaunchReq → Bool)
    (h : (match r.2 with
      | .ok bs => (match launchReq q bs with | some x => P r.1 x | none => false)
      | .error _ => false) = true) :
    ∃ t bs x, r = (t, .ok bs) ∧ launchReq q bs = some x ∧ P t x = true := by
  obtain ⟨t, e | bs⟩ := r
  · cases h
  · refine ⟨t, bs, ?_⟩
    dsimp only at h
    split at h
    · exact ⟨_, rfl, ‹_›, h⟩
    · cases h

theorem of_entry_error {σ β : Type} {r : σ × Except Trap β} (P : Trap → Bool)
    (h : (match r.2 with | .ok _ => false | .error f => P f) = true) : ∃ t f, r = (t, .error f) ∧ P f = true := by
  obtain ⟨t, f | b⟩ := r
  · exact ⟨t, f, rfl, h⟩
  · cases h

theorem demo_image : (match parseImage demoBytes with | .ok g => g.code.length == 80 && g.entry == 0 | .error _ => false) = true := by
  decide +kernel

/-- LAUNCH of the image of R66 in place is accepted and delivers id 1. -/
theorem witness_LaunchAccepted :
    IssuesOnLantern stateDemo 1 0 [.s 9, .s 20] [.s 9] ∧
    ∃ t bs r, stateDemo.begun.readEntry32 1 (stateDemo.operand core9 0 (.s 9)).val = (t, .ok bs) ∧ launchReq 17 bs = some r ∧
      (!r.serial && (match (t.acceptLaunch r).2 with | .ok id => id == 1 | .error _ => false)) = true :=
  ⟨issuesOnLantern stateDemo 1 vals9 rfl rfl _ _, of_entry _ (by decide +kernel)⟩

theorem witness_LaunchesAndWaits :
    IssuesOnLantern state9 1 0 [.s 9, .s 20] [.s 9] ∧
    (state9.operand core9 0 (.s 5)).val.toNat % 32 ≠ 0 ∧ (∀ n, n ∈ ([9, 10, 11] : List (Fin 48)) → (state9.operand core9 0 (.s n)).val.toNat % 32 = 0) ∧
    (∃ t f, state9.begun.readEntry32 1 0x8000_0000_0000 = (t, .error f) ∧ (f.code == 0x0303) = true) ∧
    (∃ t bs r, state9.begun.readEntry32 1 (state9.operand core9 0 (.s 10)).val = (t, .ok bs) ∧ launchReq 17 bs = some r ∧
      r.serial = true) ∧
    (∃ t bs r, state9.begun.readEntry32 1 (state9.operand core9 0 (.s 11)).val = (t, .ok bs) ∧ launchReq 17 bs = some r ∧
      (!r.serial && (match (t.acceptLaunch r).2 with | .ok _ => false | .error code => code == 0x0303)) = true) ∧
    IssuesOnLantern state9 1 0 [.s 7, .s 12, .s 20] [.s 7, .s 12] ∧
    (state9.lanterns.get 1).waited state9.slot = none ∧
    (state9.operand core9 1 (.s 0)).val.toNat ≤ (state9.event 1023).toNat ∧
    (state9.event 1023).toNat < (state9.operand core9 1 (.s 12)).val.toNat ∧
    ({ lantern9 with waits := [⟨1, 1023, 1, some 1, 0⟩] } : Lantern).waited 1 = some 1 := by
  refine ⟨issues9 _ _, by decide +kernel, by decide +kernel, of_entry_error _ (by decide +kernel), of_entry _ (by decide +kernel),
    of_entry _ (by decide +kernel),
    issues9 _ _, by decide +kernel, by decide +kernel, by decide +kernel, by decide +kernel⟩

/-- The same Lantern in an exception. -/
def lanternExc : Lantern := { lantern9 with exc := true }

theorem witness_LanternCommands :
    (∀ named control, IssuesOnLantern state9 1 0 named control) ∧ lantern9.exc = false ∧ core9.xfer = none ∧
    (∀ named control, IssuesOnLantern (withLantern lanternExc) 1 0 named control) ∧
    ((withLantern lanternExc).lanterns.get 1).exc = true ∧
    (let addr := (state9.operand core9 1 (.s 13)).val
     addr.toNat / 2 ^ 62 = 1 ∧ addr.toNat % 2 ^ 62 % 64 = 0 ∧ addr.toNat % 2 ^ 62 + 64 = 2 ^ 20) :=
  ⟨issues9, rfl, rfl, fun _ _ => issuesOnLantern _ 1 vals9 rfl rfl _ _, by decide +kernel, by decide +kernel⟩

/-! ## Witnesses: slots in general -/

theorem witness_CommandStatus :
    (state9.clrun 1 4 32).2 ≠ 0 ∧ (state9.preempt 5 2).2 ≠ 0 ∧ (state9.resume 5 512).2 ≠ 0 ∧ (state9.kill 5).2 ≠ 0 ∧
      state9.launch? (5 : Word).toNat = none := by decide +kernel

/-- A core in a level of count 0, one whose predicates q2 and q3 read 0, q3 poisoned, with s9 poisoned, and one with eight levels. -/
def coreOff : Core := { core1 with loops := [⟨0, 64, 1, true, 0⟩] }
def coreMarked : Core :=
  { core1 with q := (core1.q.set 2 .zero).set 3 ⟨false, false, true⟩, s := core1.s.set 9 ⟨4, false, true⟩ }
def stateOff : State := onTile { tile1 with core := coreOff }
def tileMarked : Tile := { tile1 with core := coreMarked, bank1 := ⟨.ret, none⟩ }
def stateMarked : State := onTile tileMarked

theorem witness_NopsAndGuards :
    (isNop (.vnop 3) = true ∧ stateMarked.runs (.vnop 3) ∧ stateMarked.coreOf stateMarked.focus = some coreMarked) ∧
    (stateOff.runs (.add 0 (.s 3) (.s 1) (.s 2)) ∧ stateOff.coreOf stateOff.focus = some coreOff ∧ coreOff.suppressed = true) ∧
    (stateMarked.runs (.add 2 (.s 3) (.s 1) (.s 2)) ∧ coreMarked.suppressed = false ∧ stateMarked.imms = none ∧
      isSel (.add 2 (.s 3) (.s 1) (.s 2)) = false) ∧
    ((coreMarked.readQ (guardOf (.add 2 (.s 3) (.s 1) (.s 2)))).val = false ∧
      (coreMarked.readQ (guardOf (.add 2 (.s 3) (.s 1) (.s 2)))).poison = false) ∧
    ((coreMarked.readQ (guardOf (.add 3 (.s 3) (.s 1) (.s 2)))).poison = true ∧ isNop (.add 3 (.s 3) (.s 1) (.s 2)) = false) :=
  ⟨⟨rfl, runs_of (by decide +kernel), rfl⟩, ⟨runs_of (by decide +kernel), rfl, by decide +kernel⟩,
    ⟨runs_of (by decide +kernel), by decide +kernel, rfl, rfl⟩, by decide +kernel, by decide +kernel⟩

theorem witness_WrongCoreFaults :
    (encodeFields (.launch 0 (.s 1) (.s 2))).isSome = true ∧ ¬state1.runs (.launch 0 (.s 1) (.s 2)) ∧
    state1.coreOf state1.focus = some core1 ∧ core1.suppressed = false := by
  refine ⟨rfl, ?_, rfl, by decide +kernel⟩
  rintro ⟨cls, op, g, opr, h, ha⟩
  cases h
  revert ha
  decide +kernel

/-- A source that is poisoned, first or second, a source and a destination in a bank that is in retention, and SEL. -/
theorem witness_ControlAndBankFaults :
    (stateMarked.coreOf stateMarked.focus = some coreMarked ∧ coreMarked.suppressed = false ∧
      stateMarked.passes coreMarked 0 ∧ stateMarked.imms = none ∧ stateMarked.focusTile? = some tileMarked) ∧
    (operandForm (.loop 0 (.s 9) 1) = some (0, [.s 9], [] ++ .s 9 :: []) ∧ stateMarked.runs (.loop 0 (.s 9) 1) ∧
      stateMarked.banksOn [.s 9]) ∧
    (operandForm (.agset 0 1 (.s 1) (.s 9)) = some (0, [.s 1, .s 9], [.s 1] ++ .s 9 :: []) ∧
      stateMarked.runs (.agset 0 1 (.s 1) (.s 9)) ∧ stateMarked.banksOn [.s 1, .s 9] ∧ (coreMarked.readS (.s 1)).poison = false) ∧
    (coreMarked.readS (.s 9)).poison = true ∧
    (operandForm (.add 0 (.s 16) (.s 1) (.s 2)) = some (0, [.s 1, .s 2] ++ .s 16 :: [], []) ∧
      stateMarked.runs (.add 0 (.s 16) (.s 1) (.s 2)) ∧ tileMarked.bankOff (.s 1) = false ∧ tileMarked.bankOff (.s 2) = false) ∧
    (operandForm (.agset 0 1 (.s 16) (.s 1)) = some (0, [] ++ .s 16 :: [.s 1], [.s 16, .s 1]) ∧
      stateMarked.runs (.agset 0 1 (.s 16) (.s 1))) ∧
    tileMarked.bankOff (.s 16) = true ∧ [SOp.s 1, .s 16, .s 2] = [.s 1] ++ .s 16 :: [.s 2] := by
  have on : ∀ ds : List SOp, (ds.all fun d => !tileMarked.bankOff d) = true → stateMarked.banksOn ds := by
    intro ds h t ht d hd
    cases ht
    simpa using List.all_eq_true.1 h d hd
  exact ⟨⟨rfl, by decide +kernel, fun _ => by decide +kernel, rfl, rfl⟩, ⟨rfl, runs_of (by decide +kernel), on _ (by decide +kernel)⟩,
    ⟨rfl, runs_of (by decide +kernel), on _ (by decide +kernel), by decide +kernel⟩, by decide +kernel,
    ⟨rfl, runs_of (by decide +kernel), by decide +kernel⟩, ⟨rfl, runs_of (by decide +kernel)⟩, by decide +kernel, rfl⟩

theorem witness_AddressChecksInOrder :
    (∃ d n signed, loadForm (.ldH 0 (.s 10) (.s 6) 0) = some (0, d, .s 6, n, 2, signed)) ∧
    (∃ d n, storeForm (.stD 0 (.s 10) (.s 5) 0x20) = some (0, d, .s 5, n, 8)) ∧
    (∃ op d b, atomForm (.atomAdd 0 (.s 10) (.s 5) (.s 1)) = some (0, op, d, .s 5, b)) ∧
    (∀ named, IssuesOn state1 tile1 0 named []) ∧
    -- a halfword at an odd address, a doubleword in the last 7 bytes, and one beyond the end; s9 poisoned
    (offsetAddress (state1.operand core1 0 (.s 6)).val 0 2).toNat % 2 ≠ 0 ∧
    2 ^ 21 < (state1.operand core1 0 (.s 5)).val.toNat + 8 ∧ (coreMarked.readS (.s 9)).poison = true ∧
    (∀ named, (∀ d ∈ named, tileMarked.bankOff d = false) → IssuesOn stateMarked tileMarked 0 named []) := by
  refine ⟨⟨_, _, _, rfl⟩, ⟨_, _, rfl⟩, ⟨_, _, _, rfl⟩, fun _ => issues1 _ _, by decide +kernel, by decide +kernel,
    by decide +kernel, fun named hb => ?_⟩
  exact { core := rfl, live := by decide +kernel, guard := fun _ => by decide +kernel, tile := rfl,
          banks := fun _ h d hd => by cases h; exact hb d hd, clean := fun _ _ h => absurd h (by simp) }

/-- Cores at CDEPTH 15, in the delay bundle of a transfer, and with eight levels. -/
def coreDeep : Core := { core1 with cdepth := 15 }
def coreDelay : Core := { core1 with xfer := some ⟨.br, 0, 1, 0⟩ }
def coreFull : Core := { core1 with loops := List.replicate 8 ⟨0, 64, 1, false, 0⟩ }
theorem issuesWith (c : Core) (live : c.suppressed = false) (r : ∀ d, (c.readS d).poison = false)
    (named control : List SOp) : Issues (onTile { tile1 with core := c }) c 0 named control :=
  (issuesOn (t := { tile1 with core := c }) (onTile_focusTile _) (onTile_coreOf _) live
    (by unfold Core.readQ; simp) ⟨rfl, rfl, rfl, rfl⟩ r named control).toIssues

theorem witness_TransferFaults :
    (transferForm (.call 0 2) = some 0 ∧ Issues (onTile { tile1 with core := coreDelay }) coreDelay 0 [] [] ∧
      coreDelay.xfer.isSome = true) ∧
    (Issues (onTile { tile1 with core := coreDelay }) coreDelay 0 [.s 6] [.s 6]) ∧
    (Issues (onTile { tile1 with core := coreDeep }) coreDeep 0 [] [] ∧ coreDeep.xfer = none ∧ coreDeep.cdepth = 15) ∧
    (Issues (onTile { tile1 with core := coreFull }) coreFull 0 [.s 6] [.s 6] ∧ coreFull.xfer = none ∧ 8 ≤ coreFull.loops.length) ∧
    (Issues (onTile loopTile) loopCore 0 [.s 6] [.s 6] ∧ loopCore.xfer = none ∧ loopCore.loops.length < 8 ∧
      ∃ l, loopCore.loops.head? = some l ∧ l.cdepth = loopCore.cdepth ∧
        l.last < (onTile loopTile).bundleAfter loopCore (3 : BitVec 12).toNat) :=
  ⟨⟨rfl, issuesWith coreDelay (by decide +kernel) (coreOf_clean vals1) _ _, rfl⟩,
    issuesWith coreDelay (by decide +kernel) (coreOf_clean vals1) _ _,
    ⟨issuesWith coreDeep (by decide +kernel) (coreOf_clean vals1) _ _, rfl, rfl⟩,
    ⟨issuesWith coreFull (by decide +kernel) (coreOf_clean vals1) _ _, rfl, by decide +kernel⟩,
    (loop_issues _ _).toIssues, rfl, by decide +kernel, _, rfl, rfl, by decide +kernel⟩

/-- The clause on CDEPTH: a taken CALL and a taken RET that the bundle's slots ask for. -/
theorem witness_TransferFaults_depth :
    ({ coreDeep with xfer := none, ctl := some (.xfer ⟨.call, 0x40, 2, 3⟩) } : Core).xfer = none ∧
    (∃ t : Transfer, ({ coreDeep with ctl := some (.xfer ⟨.call, 0x40, 2, 3⟩) } : Core).ctl = some (.xfer t) ∧ t.kind = .call) ∧
    (∃ t : Transfer, ({ coreDeep with ctl := some (.xfer ⟨.ret, 0x40, 2, 3⟩) } : Core).ctl = some (.xfer t) ∧ t.kind = .ret) :=
  ⟨rfl, ⟨_, rfl, rfl⟩, _, rfl, rfl⟩

theorem witness_RegistersLand : ∀ named, Issues state1 core1 0 named [] := fun _ => issuesCore1 _ _

/-- What lands beside the general registers: a bank that is off, and one that is on. -/
theorem witness_banks_land :
    (let t : Tile := { tile1 with bank2 := ⟨.off, some ⟨.ctl, 9⟩⟩ }
     t.bankOf .bank2 = ⟨.off, some ⟨.ctl, 9⟩⟩) ∧ (tile1.bankOf .bank1 ≠ ⟨.off, (tile1.bankOf .bank1).wake⟩ ∨ (BankState.off ≠ .on)) ∧
    landsInGenerator (.agPos 15 0 0) = true ∧ (0x023 : BitVec 12) ∉ [0x020, 0x021, 0x022] := by decide +kernel

/-- The operand field of a NOP slot: zero, one, and the greatest. -/
theorem witness_WordsDecode : (0 < 2 ^ 18 ∧ (0 : Nat) = 0) ∧ (1 < 2 ^ 18 ∧ (1 : Nat) ≠ 0) ∧ (2 ^ 18 - 1 < 2 ^ 18 ∧ 2 ^ 18 - 1 ≠ 0) := by
  decide

theorem witness_FaultsAreTaken :
    (state1.focus = .tile 0 ∧ state1.tile? 0 = some tile1 ∧ region.id = tile1.region) ∧
    (state9.focus = .lantern 1 ∧ (state9.lanterns.get 1).exc = false) ∧
    ((withLantern lanternExc).focus = .lantern 1 ∧ ((withLantern lanternExc).lanterns.get 1).exc = true) :=
  ⟨⟨rfl, rfl, by decide +kernel⟩, ⟨rfl, by decide +kernel⟩, rfl, by decide +kernel⟩

theorem witness_SlotsChangeNoRegisterAtIssue :
    (encodeFields (.add 0 (.s 3) (.s 1) (.s 2))).isSome = true ∧ state1.focus = .tile 0 ∧ state1.tile? 0 = some tile1 ∧
    ∃ t, exec (.add 0 (.s 3) (.s 1) (.s 2)) state1 = .next t :=
  ⟨rfl, rfl, rfl, _, rfl⟩

/-- A level at its last bundle at its last pass, and before. -/
def level : LoopLevel := ⟨0, 64, 2, false, 0⟩
theorem witness_NextBundle :
    (core1.xfer = none ∧ core1.ctl = none ∧ ∀ l, core1.loops.head? = some l → l.cdepth ≠ core1.cdepth ∨ 0 ≠ l.last) ∧
    (let c : Core := { core1 with loops := [level] }
     c.xfer = none ∧ c.ctl = none ∧ c.loops = level :: [] ∧ level.cdepth = c.cdepth ∧ 64 = level.last ∧ 1 < level.cnt) ∧
    (let c : Core := { core1 with loops := [{ level with cnt := 1 }] }
     c.loops = { level with cnt := 1 } :: [] ∧ ({ level with cnt := 1 } : LoopLevel).cnt ≤ 1) ∧
    (∃ t, ({ core1 with ctl := some (.xfer t) } : Core).ctl = some (.xfer ⟨.call, 0, 3, 0⟩)) ∧
    (∃ l, ({ core1 with ctl := some (.loop l) } : Core).ctl = some (.loop level)) ∧
    (({ core1 with xfer := some ⟨.ret, 0, 2, 1⟩ } : Core).ctl = none ∧ 1 < (⟨.ret, 0, 2, 1⟩ : Transfer).left) ∧
    coreDelay.ctl = none ∧ (⟨.br, 0, 1, 0⟩ : Transfer).left ≤ 1 ∧ ({ core1 with ctl := some (.goto 64) } : Core).ctl = some (.goto 64) :=
  ⟨⟨rfl, rfl, fun _ h => nomatch h⟩, by decide +kernel, by decide +kernel, ⟨_, rfl⟩, ⟨_, rfl⟩, by decide +kernel, rfl, by decide +kernel, rfl⟩

/-! ## Witnesses: the host and the module -/

theorem witness_HostAccesses :
    let last := 80 * 2 ^ 32 - 4
    (∀ c ∈ state9.evCycle, c.ev ≠ (1023 : Fin 1024).val) ∧ ({ Module.reset with feat := 1 } : Module).feat ≠ 0 ∧ ({ Module.reset with feat := 0 } : Module).feat = 0 ∧
    state9.dram.wf = true ∧ ([0, 0, 0, 1] : List Byte) ≠ [] ∧ state9.bar2 last + ([0, 0, 0, 1] : List Byte).length = 80 * 2 ^ 32 ∧
    80 * 2 ^ 32 ≤ state9.bar2 (80 * 2 ^ 32) ∧ 80 * 2 ^ 32 < state9.bar2 last + 5 ∧ 4 % 8 ≠ 0 := by decide +kernel

/-! ## Witnesses: events of Lanterns, of the module and of queues -/

/-- A Lantern that waits for event 1023, with a store, a load, and a store that overlaps the first outstanding. -/
def place9 (a : Nat) : List (Place × Nat) := [(⟨0, a⟩, 8)]
def lantern10 : Lantern :=
  { lantern9 with
    waits := [⟨1, 1023, 0, none, 0⟩]
    dev := [⟨.store 8 5, place9 0x280000, 0, 1, 0, 0⟩, ⟨.load (.s 3) 7, place9 0x280008, 1, 2, 0, 0⟩,
      ⟨.store 8 6, place9 0x280004, 2, 3, 0, 0⟩] }
def state10 : State := withLantern lantern10

theorem witness_LanternEvents :
    (state10.lanterns.get 0).run = false ∧ (state10.lanterns.get 1).run = true ∧ (state10.lanterns.get 1).waits[0]? = some ⟨1, 1023, 0, none, 0⟩ ∧
    (∀ k < 3, ∃ x, lantern10.dev.find? (fun y => y.ord == k) = some x ∧
      match x.kind with
      | .store .. => (∀ y ∈ lantern10.dev.takeWhile fun y => y.ord != k, y.kind.isStore = true → y.overlaps x = false) ∧ k = 0 ∨
          (∃ y ∈ lantern10.dev.takeWhile fun y => y.ord != k, y.kind.isStore = true ∧ y.overlaps x = true) ∧ k = 2
      | .load .. => k = 1) ∧
    lantern10.dev.find? (fun y => y.ord == 3) = none ∧ state10.mod_.feat = 0 ∧
    ({ state10 with mod_ := { state10.mod_ with feat := 1 } } : State).mod_.feat ≠ 0 := by
  refine ⟨by decide +kernel, by decide +kernel, rfl, ?_, by decide +kernel⟩
  intro k hk
  obtain rfl | rfl | rfl : k = 0 ∨ k = 1 ∨ k = 2 := by omega
  · exact ⟨_, rfl, .inl ⟨by decide +kernel, rfl⟩⟩
  · exact ⟨_, rfl, rfl⟩
  · exact ⟨_, rfl, .inr ⟨by decide +kernel, rfl⟩⟩

theorem witness_ModuleEvents :
    let m := Module.reset
    let busy : Attest := { m.attest with busy := some 7 }
    (m.acc.getLsbD 0 = false ∧ (1 : BitVec 7).getLsbD 0 = true ∧ (1 : BitVec 7) &&& ~~~0x7F = 0) ∧
    m.feat = 0 ∧ (∃ x, powerInput (.pwrcapWrite 3) { m with feat := 1 } = some x) ∧ m.leases = [] ∧ m.attest.busy = none ∧
    (busy.busy = some 7 ∧ 6 < 7 ∧ 7 ≤ 7) ∧
    (m.lock = false ∧ m.stepped = false ∧ m.launched = false ∧ (-20000 : Int) ≤ -20000 ∧ (20000 : Int) ≤ 20000) ∧
    (({ m with stepped := true } : Module).lock = false ∧ ({ m with stepped := true } : Module).stepped = true) ∧
    (({ m with stepped := true, lock := true } : Module).lock = true ∧ (20000 : Int) < 20001) ∧
    (5000000000 - 1 < m.lastSync + 5000000000 ∧ m.lastSync + 5000000000 ≤ 5000000000) ∧
    (1 : Fin 2) = (if ({ m with booted := some 0 } : Module).booted = some 1 then 0 else 1) := by
  refine ⟨by decide +kernel, rfl, ⟨_, rfl⟩, ?_⟩
  decide +kernel

theorem witness_ResetsAndErrors :
    State.reset.mod_.dead = [] ∧ State.reset.mod_.bootLog.retlog = [] ∧ state1.tile? 0 = some tile1 ∧
    (let c : Core := { core1 with pc := 2 ^ 18 }
     let s := onTile { tile1 with core := c }
     s.coreOf s.focus = some c ∧ ∃ code addr slot, fetchBundle (s.codeOf s.focus) (agentKind s.focus) c.target c.pc = .error (code, addr, slot)) :=
  ⟨by decide +kernel, by decide +kernel, rfl, rfl, _, _, _, rfl⟩

/-- A queue of two entries of Lantern 1. -/
def queue4 : Queue := { Queue.reset with base := 0x281000, size := 64, tail := 1, en := true, state := .running }
def withQueue (x : Queue) : State := { state9 with queues := state9.queues.set 4 x }

theorem witness_QueueRegisters :
    ((16 : Fin 20).val = 16 ∧ (15 : Fin 20).val < 16 ∧ (0x1_0000_0001 : Word).toNat % 2 ^ 32 < queue4.size / 32 ∧
    queue4.size / 32 ≤ (2 : Word).toNat % 2 ^ 32 ∧ queue4.irqen = false ∧
    (let x : Queue := { queue4 with state := .disabled, size := 2 ^ 20 }
     let s : State := { withQueue x with mod_ := { state9.mod_ with ready := true, feat := 1 } }
     s.queues.get 4 = x ∧ s.mod_.feat ≠ 0 ∧ s.mod_.ready = true ∧ x.size % 32 = 0 ∧ 64 ≤ x.size ∧ x.size ≤ 2 ^ 20 ∧ 32 < 64) ∧
    queue4.state ≠ .disabled ∧ state9.mod_.feat = 0 ∧
    state9.mod_.ready = false ∧ queue4.block = none ∧ queue4.state ≠ .stopped ∧ queue4.state ≠ .error ∧ queue4.state ≠ .blocked ∧
    ({ queue4 with state := .stopped } : Queue).state = .stopped ∧
    (let x : Queue := { queue4 with state := .blocked, block := some (.waitEvent 1023 1) }
     x.state = .blocked ∧ x.block = some (.waitEvent 1023 1) ∧ (state9.event 1023).toNat < (1 : Word).toNat) ∧
    (0 : Word).toNat ≤ (state9.event 1023).toNat) ∧
    (∃ k, QBlock.serialLaunch 3 = .serialLaunch k ∨ QBlock.serialLaunch 3 = .serialCopy k) ∧
    (∀ k, QBlock.waitEvent 1023 1 ≠ .serialLaunch k ∧ QBlock.waitEvent 1023 1 ≠ .serialCopy k) ∧
    (∀ c ∈ state9.copies, c.id ≠ 0) ∧ ∃ c ∈ [(⟨0, 4, 0, 8, 0, 0, 0⟩ : QCopy)], c.id = 0 := by
  refine ⟨by decide +kernel, ⟨3, .inl rfl⟩, by simp, by decide +kernel⟩

/-- The end of a COPY before and from its cycle on, with ranges that translate, a source and a destination that do not. -/
def copy9 (src dst : Nat) : QCopy := ⟨0, 4, 1023, 8, src, dst, 5000⟩
def stateCopy (src dst : Nat) : State := { state9 with copies := [copy9 src dst], wcy := 5000 }
theorem witness_copies :
    (∀ src dst, (stateCopy src dst).copies.find? (fun y => y.id == 0) = some (copy9 src dst)) ∧ 4999 < (copy9 0 0).ready ∧
    (copy9 0 0).ready ≤ (stateCopy 0 0).wcy ∧ state9.dram.wf = true ∧
    (∃ u v src dst, (stateCopy 0 0).piecesVa 1 0x280000 8 false = (u, .ok src) ∧ u.piecesVa 1 0x280100 8 true = (v, .ok dst)) ∧
    (∃ u code, (stateCopy 0 0).piecesVa 1 0x8000_0000_0000 8 false = (u, .error code)) ∧
    (∃ u v src code, (stateCopy 0 0).piecesVa 1 0x280000 8 false = (u, .ok src) ∧
      u.piecesVa 1 0x8000_0000_0000 8 true = (v, .error code)) := by
  refine ⟨fun _ _ => rfl, by decide, by decide, by decide +kernel, ?_, of_error (by decide +kernel), ?_⟩
  · obtain ⟨u, src, h, g⟩ := of_ok (r := (stateCopy 0 0).piecesVa 1 0x280000 8 false)
      (fun u _ => match (u.piecesVa 1 0x280100 8 true).2 with | .ok _ => true | .error _ => false) (by decide +kernel)
    obtain ⟨v, dst, k, _⟩ := of_ok (r := u.piecesVa 1 0x280100 8 true) (fun _ _ => true) (by revert g; split <;> simp_all)
    exact ⟨u, v, src, dst, h, k⟩
  · obtain ⟨u, src, h, g⟩ := of_ok (r := (stateCopy 0 0).piecesVa 1 0x280000 8 false)
      (fun u _ => match (u.piecesVa 1 0x8000_0000_0000 8 true).2 with | .ok _ => false | .error _ => true) (by decide +kernel)
    obtain ⟨v, code, k⟩ := of_error (r := u.piecesVa 1 0x8000_0000_0000 8 true) (by revert g; split <;> simp_all)
    exact ⟨u, v, src, code, h, k⟩

/-- The bytes of an entry. -/
def entryBytes (ty flags evt a32 w1 w2 w3 : Nat) : List Byte :=
  leBytes 1 ty ++ leBytes 1 flags ++ leBytes 2 evt ++ leBytes 4 a32 ++ leBytes 8 w1 ++ leBytes 8 w2 ++ leBytes 8 w3

/-- Queue 4 finds that entry at its position, in the ring or, from a CALL, in a list, with a witness record at hand. -/
def withEntry (dram : Mem) (inList : Bool) (bs : List Byte) : State :=
  let x : Queue := if inList then { queue4 with list := some ⟨0x281000, 0x281020⟩, stack := [none] } else queue4
  { withQueue x with
    dram := dram.write 0x281000 bs false
    mod_ := { state9.mod_ with wlog := [⟨1, false, 0, 0⟩] } }

def Finds (s : State) (P : State → Entry → List Byte → Bool) : Prop :=
  ∃ s1 bs, s.presents 4 s1 (Entry.of bs) bs ∧ P s1 (Entry.of bs) bs = true
theorem presents_of (s : State) (P : State → Entry → List Byte → Bool)
    (h : ((s.queue 4).hasEntry 4 && match (s.fetchEntry 4).2 with
      | .ok bs => P (s.fetchEntry 4).1 (Entry.of bs) bs
      | .error _ => false) = true) : Finds s P := by
  rw [Bool.and_eq_true] at h
  obtain ⟨h1, h2⟩ := h
  split at h2
  · rename_i bs hbs
    exact ⟨_, bs, ⟨h1, Prod.ext rfl hbs, rfl⟩, h2⟩
  · cases h2

def lone (e : Entry) (ty : Nat) (flags evt a32 w1 w2 : Bool) : Bool :=
  e.ty == ty && (flags || e.flags == 0) && (evt || e.evt == 0) && (a32 || e.a32 == 0) && (w1 || e.w1 == 0) && (w2 || e.w2 == 0) &&
    e.w3 == 0

theorem witness_entry_launch :
    Finds (withEntry demoDram false (entryBytes 1 0 0 0 0x2FFF80 0 0)) fun s1 e bs =>
      (e.ty == 1 && !s1.unplaced 4 && match launchReq 4 bs with
        | some r => (match (s1.acceptLaunch { r with byInsn := false }).2 with | .ok id => id == 1 | .error _ => false)
        | none => false) :=
  presents_of _ _ (by decide +kernel)

theorem witness_entry_wait :
    Finds (withEntry pageDram false (entryBytes 2 0 1023 0 1 0 0)) fun _ e _ =>
      (lone e 2 false true false true false && decide (e.evt < 1024)) :=
  presents_of _ _ (by decide +kernel)

theorem witness_entry_signal :
    Finds (withEntry pageDram false (entryBytes 3 2 1023 0 1 0 0)) fun _ e _ =>
      (lone e 3 true true false true false && decide (e.evt < 1024) && e.flags == 2) :=
  presents_of _ _ (by decide +kernel)

theorem witness_entry_skipEvent :
    Finds (withEntry pageDram false (entryBytes 4 13 1023 255 0 0 0)) fun _ e _ =>
      (lone e 4 true true true true false && e.a32 == 255 && e.flags == 13) :=
  presents_of _ _ (by decide +kernel)

theorem witness_entry_skipMemory :
    Finds (withEntry pageDram false (entryBytes 4 0 0 1 0 0x280000 0)) fun s1 e _ =>
      (lone e 4 false false true true true && e.w2 % 8 == 0 &&
        (s1.readBytes 1 e.w2 8).2.toOption.isSome) :=
  presents_of _ _ (by decide +kernel)

theorem witness_entry_jumpRing :
    Finds (withEntry pageDram false (entryBytes 5 0 0 1 0 0 0)) fun s1 e _ =>
      (lone e 5 false false true false false && decide (e.a32 < (s1.queue 4).size / 32)) :=
  presents_of _ _ (by decide +kernel)

theorem witness_entry_jumpList :
    Finds (withEntry pageDram true (entryBytes 5 1 0 0 0x280000 32 0)) fun s1 e _ =>
      (lone e 5 true false false true true && e.flags == 1 && (s1.queue 4).list.isSome) :=
  presents_of _ _ (by decide +kernel)

theorem witness_entry_lists : listNamed 0x280000 32 ∧ listNamed (2 ^ 48 - 32) (2 ^ 20) := by
  unfold listNamed; decide

theorem witness_entry_call :
    Finds (withEntry pageDram true (entryBytes 6 0 0 0 0x280000 32 0)) fun s1 e _ =>
      (lone e 6 false false false true true && decide ((s1.queue 4).csd < 8)) :=
  presents_of _ _ (by decide +kernel)

theorem witness_entry_return :
    Finds (withEntry pageDram true (entryBytes 7 0 0 0 0 0 0)) fun s1 e _ =>
      (lone e 7 false false false false false && (s1.queue 4).csd != 0) :=
  presents_of _ _ (by decide +kernel)

theorem witness_entry_copy :
    Finds (withEntry pageDram false (entryBytes 8 1 0 8 0x280000 0x280100 0)) fun s1 e _ =>
      (lone e 8 true true true true true && (s1.checkVa 1 0x280000 8 false).2.isNone &&
        ((s1.checkVa 1 0x280000 8 false).1.checkVa 1 0x280100 8 true).2.isNone) :=
  presents_of _ _ (by decide +kernel)

theorem witness_entry_witness :
    Finds (withEntry pageDram false (entryBytes 9 0 1023 0 1 0x280100 0)) fun s1 e _ =>
      (lone e 9 false true false true true && (s1.mod_.wlog.find? fun x => x.launch == e.w1).isSome &&
        (s1.checkVa 1 0x280100 64 true).2.isNone) :=
  presents_of _ _ (by decide +kernel)

theorem witness_entry_end :
    Finds (withEntry pageDram false (entryBytes 15 0 0 0 0 0 0)) fun _ e _ =>
      lone e 15 false false false false false :=
  presents_of _ _ (by decide +kernel)

theorem witness_entry_reserved :
    Finds (withEntry pageDram false (entryBytes 15 0 0 0 0 0 1)) fun _ e _ => (e.w3 != 0) :=
  presents_of _ _ (by decide +kernel)

/-! ## Witnesses: events of tiles, regions, launches and links -/

/-- A tile with one landing, and with two on one register. -/
def landing (n : Nat) (v : Word) : Landing := ⟨⟨.ctl, 100⟩, n, .reg (.s 3) ⟨v, false, false⟩⟩
def tileLand (ls : List Landing) : Tile := { tile1 with core := { core1 with lands := ls } }
def word9 : MeshWord := ⟨BitVec.ofNat 128 (8 * 5), 0, false, false⟩

theorem witness_TileEvents :
    (let t := tileLand [landing 1 5]
     t.core.lands = [landing 1 5] ∧ ((onTile t).tileEnv t).reached (landing 1 5).due = true ∧
       ((onTile t).tileEnv t).reached ⟨.ctl, 101⟩ = false) ∧
    ((tileLand [landing 2 5, landing 1 6]).core.lands = [landing 2 5, landing 1 6] ∧ (2 : Nat) ≠ 1 ∧ SOp.s 3 ≠ .s 0) ∧
    (let l : Lantern := { lantern9 with core := { core9 with lands := [landing 1 5] }, cyc := 100 }
     ((withLantern l).lanterns.get 1).core.lands = [landing 1 5] ∧
       (((withLantern l).lanterns.get 1).env (withLantern l).wcy).reached (landing 1 5).due = true) ∧
    (let t : Tile := { tile1 with mtasks := [⟨⟨.mat, 100⟩, 1, .clear 1⟩] }
     (∃ x z, t.mtasks = [x] ∧ x.act = .clear z ∧ ((onTile t).tileEnv t).reached x.due = true) ∧
       ∀ x ∈ tile1.mtasks, (state1.tileEnv tile1).reached x.due = false) ∧
    (landing 1 5).eff.isPosition = false ∧ (Effect.agPos 15 0 1).isPosition = true ∧
    ({ tile1 with run := .waiting 100 } : Tile).run = .waiting 100 ∧
    (let t : Tile := { tile1 with bank1 := ⟨.off, some ⟨.ctl, 100⟩⟩ }
     t.bank1.wake = some ⟨.ctl, 100⟩ ∧ t.bank2.wake = none ∧ ((onTile t).tileEnv t).reached ⟨.ctl, 100⟩ = true) ∧
    (let t : Tile := { tile1 with accs := [⟨⟨.ref, 100⟩, 0, 7, 100, 0, .serve .n word9⟩] }
     ∃ x lane w, t.accs = [x] ∧ x.op = .serve lane w ∧ ((onTile t).tileEnv t).reached x.due = true ∧
       w.data.toNat % 2 ^ 21 % 8 = 0 ∧ bankOf (w.data.toNat % 2 ^ 21) ∉ t.claims) ∧
    tile1.rep.active = false ∧
    (let t : Tile := { tile1 with
       tape := Mem.empty.write 0 [8, 0, 0, 0] false
       rep := { tile1.rep with active := true, endAt := some 100, stateAt := some 0 } }
     t.rep.active = true ∧ (Tile.readAhead ((onTile t).cluster t).scy (taperWords + 1) t).2 = none ∧ t.rep.endAt = some 100 ∧
       100 ≤ ((onTile t).cluster t).scy ∧ t.rep.queue = [] ∧ t.rep.stateAt = some 0 ∧ t.run ≠ .done ∧ t.stateGood 0 = false ∧
       ∃ w, t.taperWord 0 = some w) ∧
    (∃ w, (tileTape [6 <<< 60 + 0xFFFF <<< 44 + 5 <<< 32, 0, 0, 0, 0, 0]).taperWord 8 = some w) ∧
    (tileTape [6 <<< 60 + 0xFFFF <<< 44 + 5 <<< 32, 0, 0, 0, 0, 0]).stateGood 8 = true := by
  refine ⟨by decide +kernel, by decide +kernel, by decide +kernel, ⟨⟨_, _, rfl, rfl, by decide +kernel⟩, by decide +kernel⟩, rfl, rfl, rfl,
    by decide +kernel, ⟨_, _, _, rfl, rfl, by decide +kernel⟩, rfl, ?_⟩
  refine ⟨⟨rfl, by decide +kernel, rfl, by decide +kernel, rfl, rfl, by decide +kernel, by decide +kernel, _, rfl⟩, ⟨_, rfl⟩,
    by decide +kernel⟩

/-- One task of one M instruction, due now: contributions that land, a step, the reading of the set by MOUT, and its rows. -/
def ctxOut : MCtx := { mctxOf (.mout 0 1 0 2) state2 tile2 pathOutput 1 0 (tile2.handles.get 2).bits 0 0 with base := 0 }
def tileTask (a : MAct) : Tile := { tile2 with mtasks := [⟨⟨.mat, 100⟩, ctxOut.seq, a⟩], mctx := [ctxOut] }
theorem witness_matrix_tasks :
    (∀ a, (tileTask a).mctx = [ctxOut] ∧ ∃ x, (tileTask a).mtasks = [x] ∧ ctxOut.seq = x.mseq ∧ x.act = a ∧
      ((onTile (tileTask a)).tileEnv (tileTask a)).reached x.due = true) ∧
    (⟨0, 0, 0, [], [], []⟩ : StepData).errs = [] ∧ (∃ f, elemFmt (hFmt ctxOut.ha) = some f) ∧
    (∀ w, ((tileTask (.write [] 101)).sp.mark w).err = .clean) :=
  ⟨fun _ => ⟨rfl, _, rfl, rfl, rfl, rfl⟩, rfl, ⟨_, rfl⟩, fun _ => rfl⟩

/-- A word at a switch, from a seam buffer or not, and a copy of one run inside scratchpad. -/
def arrival (seam : Option Seam) (header : Bool) : Arrival := ⟨.n, 100, { word9 with header := header }, seam⟩
def cmd9 : Cmd :=
  { kind := .cpyloc 0x100, win := 3, phase := 0, ord := 1, slot := 0, iss := 90, sbase := 0x200, bva := 0, dims := [⟨64, 1, 1⟩],
    total := 64, ready := 0 }
def tileCmd (k : CmdKind) : Tile := { tile1 with cmds := [{ cmd9 with kind := k }] }
def windowWith (n : Nat) (pend : Nat) (raised : Bool) : Window := { Window.reset with mode := .copy, chk := some n, pend := pend, raised := raised }

theorem witness_MeshAndCopyEvents :
    state1.tile? 0 = some tile1 ∧ (state1.cluster tile1).scy = 100 ∧
    (∃ x, (arrival (some ⟨0, 0, 0, false, 0, 0, 0⟩) false).seam = some x ∧ (arrival (some x) false).at_ = 100 ∧ x.late = false) ∧
    (∃ x, (arrival (some ⟨0, 0, 0, true, 0, 0, 0⟩) false).seam = some x ∧ x.late = true) ∧
    ((arrival none false).seam = none ∧ (arrival none false).word.header = false ∧ (arrival none true).word.header = true) ∧
    ([arrival none false, arrival none true].all fun a => a.lane == .n && a.at_ == 100) = true ∧
    (let t : Tile := { tile1 with act := tile1.act.set 15 5, routes := tile1.routes.set 15 0x8400, rq := List.replicate 7 word9 }
     t.segments = [(Lane.n.code, 16)] ∧ t.rq.length < 8 ∧ 8 ≤ (word9 :: t.rq).length) ∧ tile1.segments = [] ∧
    (100 + 96 < 197 ∧ 196 ≤ 100 + 96 ∧ (windowWith 196 0 false).satisfied = true ∧ (windowWith 196 0 true).raised = true ∧
      (windowWith 196 1 false).satisfied = false ∧ (windowWith 196 1 false).raised = false) ∧
    (∀ k ∈ [CmdKind.cpyin, .fill 1, .drain 0], (onTile (tileCmd k)).mayLand (tileCmd k) { cmd9 with kind := k } = true) ∧
    (let c : Cmd := { cmd9 with kind := .cpyout }
     let d : Cmd := { c with ord := 2 }
     let t : Tile := { tile1 with cmds := [c, d] }
     t.cmds.find? (fun x => x.ord == 2 && !x.kind.isStream) = some d) ∧
    (∃ n, (tileCmd (.cpyloc 0x100)).cmds = [cmd9] ∧ cmd9.kind = .cpyloc 0x100 ∧ cmd9.dims = [⟨n, 1, 1⟩] ∧ 0 ≤ cmd9.sbase ∧
      tile1.sp.wf = true ∧ tile1.sp.correctables 0x100 n = [] ∧ tile1.sp.uncorrectables 0x100 n = [] ∧
      tile1.sp.correctables cmd9.sbase.toNat n = [] ∧ tile1.sp.uncorrectables cmd9.sbase.toNat n = []) := by
  refine ⟨rfl, rfl, ⟨_, rfl, rfl, rfl⟩, ⟨_, rfl, rfl⟩, ⟨rfl, rfl, rfl⟩, by decide +kernel, by decide +kernel, by decide +kernel,
    by decide +kernel, by decide +kernel, by decide +kernel, _, rfl, rfl, rfl, by decide +kernel⟩

/-- A region in some phase, with its launch. -/
def inPhase (r : Region) : State := { State.reset with agenda := [], regions := [r], launches := [launch], wcy := 5000 }
def publish9 : Publish := ⟨0, 0, none, 5000, none, false⟩

theorem witness_RegionEvents :
    (inPhase region).holds 0 region launch ∧
    ({ region with phase := .armed 5000 } : Region).phase = .armed 5000 ∧ region.haltReq = none ∧ 5000 ≤ (inPhase region).wcy ∧
    (inPhase region).wcy < 5001 ∧
    (∃ c, region.clusters[0]? = some c ∧ c.hold = 0 ∧ 1 < ({ c with hold := 2 } : Cluster).hold ∧ ({ c with hold := 1 } : Cluster).hold = 1) ∧
    region.phase = .running ∧ region.hardReq = false ∧ region.frozenAt 5000 = false ∧
    ({ region with stalls := [⟨.publish, 5000 - 96, none⟩] } : Region).frozenAt 5000 = true ∧
    (let x : Region := { region with stalls := [⟨.lantern, 5000 - 96, none⟩], hardReq := true }
     x.hardReq = true ∧ x.haltReq = none ∧ x.frozenAt 5000 = true ∧ ({ x with haltReq := some ⟨5001⟩ } : Region).haltReq ≠ none ∧
       ∃ y ∈ x.stalls, y.by_ = .lantern ∧ y.freezes 5000 = true) ∧
    ({ region with haltReq := some ⟨5000⟩ } : Region).haltReq = some ⟨5000⟩ ∧
    ({ region with publishes := [publish9] } : Region).publishes ≠ [] ∧
    ({ region with phase := .retryWait 5000 } : Region).phase = .retryWait 5000 ∧
    (publish9.merged = none ∧ publish9.ready ≤ (inPhase region).wcy ∧
      (inPhase { region with publishes := [publish9], bphase := 1 }).phaseOpen 0 0 = false ∧ publish9.boundary = none ∧ publish9.final = false) ∧
    ({ publish9 with merged := some 5000 } : Publish).merged = some 5000 ∧
    (inPhase region).wcy % 4096 ≠ 0 ∧ 8192 % 4096 = 0 ∧
    (∃ c, region.clusters = [c] ∧ region.cw = 1 ∧ region.ch = 1 ∧ c.site < 80) := by
  refine ⟨⟨rfl, rfl⟩, rfl, rfl, by decide +kernel, by decide +kernel, ⟨_, rfl, by decide +kernel⟩, rfl, rfl, by decide +kernel,
    by decide +kernel, by decide +kernel, rfl, by simp, rfl, by decide +kernel, rfl, by decide +kernel, by decide +kernel, _, rfl, rfl, rfl, by decide +kernel⟩

/-- The launch as it waits, and a replay that has to copy its tapes. -/
def waiting : Launch := { launch with state := .waiting }

theorem witness_LaunchEvents :
    (let s := inPhase { region with expiry := some 5000 }
     (∃ x, s.regionOfLaunch 1 = some x ∧ x.expiry = some 5000) ∧ 5000 ≤ s.wcy ∧ s.wcy < 5001) ∧
    ((inPhase region).regions[0]? = some region ∧ (inPhase region).launch? region.launch = some launch) ∧
    (let n := 5000 - launch.img.maxintv
     n - 1 + launch.img.maxintv < (inPhase region).wcy ∧ (inPhase region).wcy ≤ n + launch.img.maxintv ∧ region.retrying = false) ∧
    (region.hardReq = false ∧ region.haltReq = none ∧ (∀ p ∈ region.publishes, p.boundary = none) ∧
      ∃ p ∈ [({ publish9 with boundary := some 1 } : Publish)], p.boundary ≠ none) ∧
    ((inPhase { region with phase := .loaded }).holds 0 { region with phase := .loaded } launch ∧ launch.kept = none) ∧
    (launch.chosen = false ∧ ({ launch with kept := some .hard, chosen := true } : Launch).kept = some .hard ∧
      (∃ y ∈ [(⟨.lantern, 4000, none⟩ : Stall)], ∀ v, y.withdrawn = some v → 5000 < v + 96) ∧
      ∀ y ∈ [(⟨.lantern, 4000, some 4904⟩ : Stall)], ∃ v, y.withdrawn = some v ∧ v + 96 ≤ 5000) ∧
    (∀ p ∈ [RegionPhase.ending 5, .finished 5, .saving false 5000, .loading 5000],
      (inPhase { region with phase := p }).holds 0 { region with phase := p } launch) ∧
    ((inPhase region).tilesOf 0).all (·.quiet) = true ∧ (onTile (tileCmd .cpyin)).tilesOf 0 = [tileCmd .cpyin] ∧
    (tileCmd .cpyin).quiet = false ∧ region.publishes = [] ∧ launch.copiesTapes = false ∧
    launch.replay = false ∧ firstWaitw launch.img.code launch.img.entry = none ∧
    (firstWaitw (leBytes 4 0xE014_0006) 0 = some 6 ∧ 5000 + 96 ≤ (5096 : Word).toNat) ∧
    (∀ t ∈ (inPhase region).tilesOf region.id, t.cmds = []) ∧ (tileCmd .cpyin).cmds ≠ [] ∧ (inPhase region).region? region.id = some region ∧
    ({ launch with tapeVa := 64 } : Launch).copiesTapes = true ∧
    launch.evDue = false ∧ ({ launch with evDue := true } : Launch).evDue = true ∧
    State.reset.mod_.decisions = 0 ∧ State.reset.launches = [] ∧
    (let s : State := { State.reset with launches := [waiting], mod_ := { State.reset.mod_ with decisions := 1 } }
     let u : State := { s with mod_ := { s.mod_ with decisions := 0 } }
     s.launches = [waiting] ∧ waiting.state = .waiting ∧ waiting.cls < 5 ∧ waiting.queue < 20 ∧ waiting.short = false ∧
       (match u.freeRect waiting with | some rect => u.portsBad waiting rect == false | none => false) = true ∧
       (1000 * waiting.desc.ecost : Nat) ≤ waiting.ebal) := by
  refine ⟨⟨⟨_, rfl, rfl⟩, by decide +kernel⟩, ⟨rfl, rfl⟩, by decide +kernel, by decide +kernel, ⟨⟨rfl, rfl⟩, rfl⟩,
    ⟨rfl, rfl, ⟨_, List.mem_singleton.2 rfl, nofun⟩, by simp⟩, fun _ _ => ⟨rfl, rfl⟩, by decide +kernel, rfl, by decide +kernel, rfl, rfl, rfl, by decide +kernel, by decide +kernel,
    by decide +kernel, by decide +kernel, rfl, rfl, rfl, rfl, by decide +kernel, by decide +kernel, ?_⟩
  exact ⟨rfl, rfl, by decide +kernel⟩

theorem witness_LinkEvents :
    let x := State.reset.ports.get 0
    let word : BitVec 256 := flitOf (flitBody 1 x.recvSeq 0 ⟨5, 0, false, false⟩ 0 0)
    let busy : Port := { x with window := [(word, 7)] }
    ({ x with up := true } : Port).up = true ∧ x.up = false ∧ flitCrcOk 0 = false ∧
    (flitCrcOk word = true ∧ flitType word = 1 ∧ flitSeq word = x.recvSeq ∧ (flitWord word).header = false) ∧
    (let f : BitVec 256 := flitOf (flitBody 1 x.recvSeq 0 ⟨5, 0, false, true⟩ 9 3)
     flitCrcOk f = true ∧ flitType f = 1 ∧ flitSeq f = x.recvSeq ∧ (flitWord f).header = true ∧ flitField f 168 8 = 3 ∧
       flitField f 176 16 = 9 ∧ x.filter = [] ∧
       (({ x with filter := [⟨3, 9, ⟨5, 0, false, false⟩⟩] } : Port).filter.find? fun y => y.modid == 3 && y.seq == 9).isSome = true) ∧
    (let f : BitVec 256 := flitOf (flitBody 1 7 0 ⟨5, 0, false, false⟩ 0 0)
     ({ x with window := [(f, 8)] } : Port).window = [(f, 8)] ∧ flitSeq f = (7 : BitVec 16).toNat) ∧
    (flitCrcOk (ctlFlit 4 0 0) = true ∧ flitType (ctlFlit 4 0 0) = 4) ∧
    (flitCrcOk (ctlFlit 2 5 0) = true ∧ flitType (ctlFlit 2 5 0) = 2 ∧ ∀ y ∈ x.window, flitSeq y.1 ≠ flitAck (ctlFlit 2 5 0)) ∧
    (∀ y ∈ x.window, flitSeq y.1 ≠ (3 : BitVec 16).toNat) ∧
    (busy.window = [(word, 7)] ∧ flitSeq word = (0 : BitVec 16).toNat ∧ 7 < 8) ∧
    (x.fullFor < 4096 ∧ ∀ y ∈ busy.window, y.2 < 8) ∧ State.reset.holder 0 = none ∧ x.waiting = [] ∧
    (4096 ≤ ({ x with fullFor := 4096 } : Port).fullFor) ∧ ∃ y ∈ ({ x with window := [(word, 8)] } : Port).window, 8 ≤ y.2 := by
  decide +kernel

/-! ## Witnesses: encoding, steps and memory -/

theorem witness_DecodeOfEncode :
    ∃ w, (Instr.cmp 15 7 .geu (.o 7) .l).wf = true ∧ encode true (.cmp 15 7 .geu (.o 7) .l) = some w := ⟨_, by decide, rfl⟩

theorem witness_EncodeOfDecode : ∃ i, decodeSlot (0xD004_C028 : BitVec 32).toNat = .ok i := ⟨.route 0 3 40, by decide +kernel⟩

/-- The bundle of ADD s3, s1, s2 with NOPs, at address 64 of a code store. -/
def bundle : List (Nat × Instr) :=
  [(0x0504_3042, .add 5 (.s 3) (.s 1) (.s 2)), (0x1000_0000, .vnop 0), (0x1000_0000, .vnop 0), (0xA000_0000, .mnop 0)]
def bundleCode : Mem := Mem.empty.write 64 (bundle.flatMap fun x => leBytes 4 x.1) false
def tileRun : Tile := { tile1 with code := bundleCode, core := { core1 with pc := 64 } }
def stateRun : State := { onTile tileRun with agenda := [.issue (.tile 0), .access 3], focus := .lantern 2 }
def lanternBundle : List (Nat × Instr) :=
  [(0x0504_3042, .add 5 (.s 3) (.s 1) (.s 2)), (0, .nop 0), (0, .nop 0), (0xE000_0000, .xnop 0)]

theorem bundleAt_of {m : Mem} {kind : CoreKind} {pc : Nat} {ws : List (Nat × Instr)} (h1 : pc % 4 = 0)
    (h2 : pc + 4 * ws.length ≤ 2 ^ 18) (h3 : ws ≠ []) (h4 : ws.length ≤ (match kind with | .tile => 8 | .lantern => 4))
    (h5 : (ws.zipIdx.all fun x => m.read (pc + 4 * x.2) 4 == x.1.1 && (match decodeSlot x.1.1 with | .ok i => i == x.1.2 | .error _ => false) &&
      x.1.1.testBit 31 == decide (x.2 + 1 = ws.length) && (m.mark ((pc + 4 * x.2) / 8)).err != .uncorrectable) = true)
    (h6 : bundleBad kind (ws.map (·.1)) = none) : BundleAt m kind pc ws := by
  refine ⟨h1, h2, h3, h4, fun k x hk => ?_, h6⟩
  rw [List.all_eq_true] at h5
  have := h5 (x, k) (List.mem_zipIdx_iff_getElem?.2 hk)
  simp only [Bool.and_eq_true, beq_iff_eq, bne_iff_ne, ne_eq] at this
  obtain ⟨⟨⟨a, b⟩, c⟩, d⟩ := this
  refine ⟨a, ?_, c, d⟩
  split at b
  · rename_i i hi; rw [hi]; simp only [beq_iff_eq] at b; rw [b]
  · cases b

/-- Executes the slots one after another, where each answers a next state and takes no fault. -/
def runAll : List SlotRun → State → Option State
  | [], s => some s
  | x :: xs, s =>
    match exec x.insn (s.atSlot x) with
    | .next t => if t.trap = none then runAll xs t else none
    | _ => none

theorem executes_of (xs : List SlotRun) (s : State) (h : (runAll xs s).isSome = true) : ∃ u, Executes xs s u := by
  induction xs generalizing s with
  | nil => exact ⟨s, .nil s⟩
  | cons x xs ih =>
    unfold runAll at h
    split at h
    · rename_i t ht
      split at h
      · rename_i hc
        obtain ⟨u, hu⟩ := ih t h
        exact ⟨u, .cons x xs s t u ht hc hu⟩
      · cases h
    · cases h

theorem witness_StepRunsWhatIsDecoded :
    let rest : State := { stateRun with agenda := [.access 3] }
    let l : Lantern := { lantern9 with core := { core9 with pc := 64 }, sram := Mem.empty.write 64 (lanternBundle.flatMap fun x => leBytes 4 x.1) false }
    let s : State := { withLantern l with agenda := [.issue (.lantern 1)] }
    (stateRun.agenda = .issue (.tile 0) :: [.access 3] ∧ stateRun.tile? 0 = some tileRun ∧ tileRun.run = .running ∧
      tileRun.rep.active = false ∧ rest.willCollide 0 (stateRun.cluster tileRun).ctlLeft = false ∧
      ((stateRun.cluster tileRun).scy - (stateRun.cluster tileRun).clk.org) % (stateRun.cluster tileRun).clk.div.ctl = 0) ∧
    BundleAt tileRun.code .tile tileRun.core.pc bundle ∧
    (∃ u, Executes (slotsOf bundle) ((rest.forAgent (.tile 0)).modTile 0 fun x =>
      x.countCs false (tileRun.code.correctables tileRun.core.pc (4 * bundle.length))) u) ∧
    (s.agenda = .issue (.lantern 1) :: [] ∧ (s.lanterns.get 1).run = true ∧ (s.lanterns.get 1).halted = false ∧
      (s.lanterns.get 1).waits = []) ∧
    (∀ x ∈ lanternBundle, (s.lanterns.get 1).inFlight x.2 = false ∧ ∀ g d e v, x.2 ≠ .evwait g d e v) ∧
    BundleAt (s.lanterns.get 1).sram .lantern (s.lanterns.get 1).core.pc lanternBundle ∧
    (∃ u, Executes (slotsOf lanternBundle) (({ s with agenda := [] } : State).forAgent (.lantern 1)) u) := by
  refine ⟨⟨rfl, rfl, rfl, rfl, by decide +kernel, by decide +kernel⟩, bundleAt_of (by decide +kernel) (by decide +kernel) (by decide) (by decide)
    (by decide +kernel) (by decide +kernel), executes_of _ _ (by decide +kernel), ⟨rfl, by decide +kernel, by decide +kernel,
    by decide +kernel⟩, ?_, bundleAt_of (by decide +kernel) (by decide +kernel) (by decide) (by decide)
    (by decide +kernel) (by decide +kernel), executes_of _ _ (by decide +kernel)⟩
  intro x hx
  refine ⟨?_, ?_⟩
  · revert x; decide +kernel
  · intro g d e v h
    simp only [lanternBundle, List.mem_cons, List.not_mem_nil, or_false] at hx
    rcases hx with rfl | rfl | rfl | rfl <;> cases h

/-- A tile with a control divisor of 2, two loads of which meet on a bank in the second reference cycle of its control cycle. -/
theorem witness_StepRunsWhatIsDecoded_collision :
    let load (n : Nat) : Access := ⟨⟨.ref, 101⟩, n, 0, 99, 99, .load 8 false 0 (.s 3)⟩
    let t : Tile := { tileRun with accs := [load 1, load 2] }
    let k : Cluster := { cluster with clk := { cluster.clk with div := ⟨2, 2, 2, 2⟩, org := 100 } }
    let s : State := { onTile t with regions := [{ region with clusters := [k] }] }
    t.run = .running ∧ s.willCollide 0 (s.cluster t).ctlLeft = true := by decide +kernel

theorem witness_MemoryStaysCanonical :
    State.canonical stateRun ∧ ∃ t, step { stateRun with agenda := [] } = .next t :=
  ⟨{ dram := by decide +kernel, host := by decide +kernel, tiles := by unfold Tile.canonical; decide +kernel,
     kept := by unfold Tile.canonical; decide +kernel, lanterns := by decide +kernel }, _, rfl⟩

/-- A memory with a poisoned word, and a write that covers one word and parts of two others. -/
theorem witness_WritesReadBack :
    let m := Mem.empty.write 8 (List.replicate 8 7) true
    m.wf = true ∧ (8 ≤ 8 * 1 ∧ 8 * 1 + 8 ≤ 8 + (List.replicate 8 7).length) ∧ (5 < 8 * 0 + 8 ∧ 8 * 0 < 5 + 16) := by decide +kernel

theorem witness_AccessesAtTheBank :
    state1.tile? 0 = some tile1 ∧ (∀ w, (tile1.sp.mark w).err = .clean) ∧
    (∃ x : Access, x.op = .load 8 false 0x1FFFF8 (.s 3)) ∧ (∃ x : Access, x.op = .atom .cas 0 .zero .zero .l) ∧
    (let t : Tile := { tile1 with sp := Mem.empty.write 0 (List.replicate 8 0) true }
     t.sp.poisoned 0 8 = true) ∧ tile1.sp.poisoned 0 8 = false ∧
    (let w : PWrite := ⟨⟨.ref, 100⟩, 1, 0, false, 0, 0, 0xFF, 5, false⟩
     let t : Tile := { tile1 with wbuf := [w] }
     t.wbuf = [w] ∧ ((onTile t).tileEnv t).reached w.due = true) :=
  ⟨rfl, fun _ => rfl, ⟨⟨⟨.ctl, 101⟩, 0, 0, 0, 100, .load 8 false 0x1FFFF8 (.s 3)⟩, rfl⟩, ⟨⟨⟨.ctl, 101⟩, 0, 0, 0, 100, .atom .cas 0 .zero .zero .l⟩, rfl⟩,
    by decide +kernel, by decide +kernel, rfl, by decide +kernel⟩

/-- The SADV of a streaming window that waited behind a list. -/
theorem witness_AccessesAtTheBank_engine :
    ∃ u, tile4.advance 15 1 0 0 5 state4.wcy = .ok u := ok_of (by decide +kernel)

/-- A launch group of which a tile holds a port. -/
def state4Link : State := { state4 with launches := [{ launch with desc := { launch.desc with group := 1 } }] }
theorem witness_LinkEvents_holder : ∃ p, state4.portOf tile4 = some p ∧ state4Link.holder p = some 0 ∧
    state4Link.tile? 0 = some tile4 ∧ tile4.awaits p 3 9 = false := by
  obtain ⟨p, hp⟩ := Option.isSome_iff_exists.1 (by decide +kernel : (state4.portOf tile4).isSome = true)
  refine ⟨p, hp, ?_, rfl, rfl⟩
  have h : ∀ p, state4.portOf tile4 = some p → state4Link.holder p = some 0 := by decide +kernel
  exact h p hp

/-! ## Ill-formed terms: each check of well-formedness refuses one, and so does the decoder where the term has a word -/

def refused (i : Instr) : Bool :=
  !i.wf && match encode false i with
    | some w => decodeTableWord 32 w.toNat == none
    | none => true

theorem test_illformed_scalar : [Instr.add 0 .l (.s 1) (.s 2), .sel 2 .l (.s 1) (.s 2), .cas 0 .l (.s 1) (.s 2), .addi 0 .l (.s 1) 1,
    .ldD 0 .l (.s 1) 0, .li 0 .l 1, .popc 0 .l (.s 1), .mfs 0 .l 0x051, .mfs 0 (.s 1) 0x005, .mts 0 0x098 (.s 1),
    .cmp 0 0 .eq (.s 1) (.s 2), .cmpi 0 0 .ne (.s 1) 0, .plog 0 0 .and 2 3, .loop 0 (.s 1) 0].all refused = true := by decide +kernel

theorem test_illformed_vector : [Instr.vadds 0 .f32 0 1 2 3, .vshl 0 .bf16 0 1 2 3, .viota 0 .f16 0 1 2, .vcmpeq 0 .i8 0 0 1 2,
    .vmask 0 .i8 0 0 1, .vany 0 .i8 0 0 1, .vcvt 0 .i16 0 1 2 .i16, .vexp2 0 .i8 0 1 2, .vsqrt 0 .n16 0 1 2, .vred 0 .f32 0 1 2 .and,
    .vrand 0 .i8 0 1 2 3, .vsrt 0 .i16 0 1 2, .vgath 0 .n8 0 1 2 3].all refused = true := by decide +kernel

theorem test_illformed_other : [Instr.agout 0 .l 1, .agrd 0 .l 1 .p, .hgetf 0 .l 1 2, .vmget 0 .l 1, .mkget 0 .l 1, .vmset 0 0 (.s 1),
    .recv 0 1 2 false true, .tagset 0 1 0, .rdcyc 0 .l, .rdwall 0 .l, .pswitch 0 0, .repb 0 0, .launch 0 .l (.s 1),
    .evwait 0 .l (.s 1) (.s 2), .lda 0 .l (.s 1), .clrun 0 .l (.s 1) (.s 2), .preempt 0 .l (.s 1) (.s 2), .resume 0 .l (.s 1) (.s 2),
    .kill 0 .l (.s 1), .lease 0 .l (.s 1) (.s 2)].all refused = true := by decide +kernel

/-- Words that no instruction has: class 7, an opcode that is not assigned, a source code from 57 on, a reserved field. -/
theorem test_words_refused : [0x7000_0000, 0x10B8_0000, 0x0004_0039, 0x0078_0001, 0x2028_0000, 0x401C_0001, 0x6040_0000].all
    (fun w => decodeTableWord 32 w == none) = true := by decide +kernel

/-! ## Worked examples of the spec -/

/-- What one slot of a tile has landing. -/
def landing? (i : Instr) : List Effect :=
  match exec i state1 with
  | .next t => (t.tile? 0).elim [] fun t => t.core.lands.map (·.eff)
  | _ => []
def lands (i : Instr) (v : Word) : Bool := landing? i == [.reg (.s 9) ⟨v, false, false⟩, .reg .l ⟨v, false, false⟩]

/-- R113, R114: wrapping, an immediate of −32, a shift of a negative number. -/
theorem test_add_wraps : lands (.add 0 (.s 9) (.s 1) (.s 2)) 7 = true := by decide +kernel
theorem test_addi_signed : lands (.addi 0 (.s 9) (.s 1) 0x20) (BitVec.ofInt 64 (-24)) = true := by decide +kernel
theorem test_sra_signed : lands (.srai 0 (.s 9) (.s 3) 63) (BitVec.allOnes 64) = true := by decide +kernel
theorem test_shr_unsigned : lands (.shri 0 (.s 9) (.s 3) 63) 1 = true := by decide +kernel

/-- R118, R119: high halves, and the corners of the divisions. -/
theorem test_mulh_signed : lands (.mulh 0 (.s 9) (.s 3) (.s 2)) 0 = true := by decide +kernel
theorem test_mulhu_unsigned : lands (.mulhu 0 (.s 9) (.s 3) (.s 2)) 0x7FFF_FFFF_FFFF_FFFF = true := by decide +kernel
theorem test_div_overflow : lands (.div 0 (.s 9) (.s 3) (.s 2)) 0x8000_0000_0000_0000 = true := by decide +kernel
theorem test_rem_overflow : lands (.rem 0 (.s 9) (.s 3) (.s 2)) 0 = true := by decide +kernel
theorem test_div_zero : lands (.div 0 (.s 9) (.s 1) (.s 0)) (BitVec.allOnes 64) = true := by decide +kernel
theorem test_remu_zero : lands (.remu 0 (.s 9) (.s 1) (.s 0)) 8 = true := by decide +kernel

/-- R115: LIS shifts its destination by 12 bits. -/
theorem test_lis : landing? (.lis 0 (.s 1) 0x456) = [.reg (.s 1) ⟨0x8456, false, false⟩, .reg .l ⟨0x8456, false, false⟩] := by
  decide +kernel

/-- R117: 8 has 60 leading zeros, and −1 has 64 one bits. -/
theorem test_clz : lands (.clz 0 (.s 9) (.s 1)) 60 = true := by decide +kernel
theorem test_popc : lands (.popc 0 (.s 9) (.s 2)) 64 = true := by decide +kernel

/-- R120: the immediate is sign-extended for the unsigned conditions too, so that 8 < −1. -/
theorem test_cmpi_unsigned : landing? (.cmpi 0 2 .ltu (.s 1) 0x3F) = [.pair 2 ⟨true, false, false⟩] := by decide +kernel

/-- R140: the walk of a generator with P = 0x1000, C = 0x1003 and S = 0x0000_0004_0000_0040. -/
def gen140 : Gen := { Gen.reset with base := 0x1000, icnt := 3, ocnt := 1, istr := 0x40, ostr := 0x400 }
theorem test_generator_walk : gen140.addrs 9 = [0x1000, 0x1040, 0x1080, 0x10C0, 0x1400, 0x1440, 0x1480, 0x14C0, 0x1000] := by
  decide +kernel
theorem test_generator_position : (gen140.steps 5).addr = 0x1440 ∧ (gen140.steps 5).oi.toNat * 2 ^ 12 + (gen140.steps 5).ii.toNat = 0x1001 := by
  decide +kernel

/-- A line that holds some elements from its start, and a V instruction on lines. -/
def lineOf (w : Nat) (xs : List Nat) : Line :=
  let bs := xs.flatMap (leBytes w)
  ⟨bs ++ List.replicate (64 - bs.length) 0, List.replicate 64 false⟩
def vector (i : Instr) (mask : BitVec 64) : VCtx := ⟨i, 0, 0, 0, mask, .rne, .zero, .zero⟩

def effects (v : VCtx) (l : Line) : List Effect := (v.result [l]).effs
def written (v : VCtx) (l : Line) : List (Option Byte) := ((v.result [l]).writes.flatMap (·.bytes)).take 4

/-- R90: the tree over 1.0, 2^24, 1.0 and −2^24 under RNE delivers 1.0 and sets NX. -/
theorem test_vred_tree : effects (vector (.vred 0 .f32 0 1 6 .add) 0xFFFF)
    (lineOf 4 [0x3F80_0000, 0x4B80_0000, 0x3F80_0000, 0xCB80_0000]) = [.reg (.o 1) ⟨0x3F80_0000, true, false⟩, .flags 0x01] := by
  decide +kernel

/-- R77: 127.4 to i8 gives 127 with NX, and 127.6 gives 127 with NV; i8 −1 to n16 gives 0 with SA, and to i16 0xFFFF. -/
theorem test_vcvt_inexact : written (vector (.vcvt 0 .i8 0 1 6 .f32) 1) (lineOf 4 [0x42FE_CCCD]) = [some 127, none, none, none] ∧
    effects (vector (.vcvt 0 .i8 0 1 6 .f32) 1) (lineOf 4 [0x42FE_CCCD]) = [.flags 0x01] := by decide +kernel
theorem test_vcvt_invalid : written (vector (.vcvt 0 .i8 0 1 6 .f32) 1) (lineOf 4 [0x42FF_3333]) = [some 127, none, none, none] ∧
    effects (vector (.vcvt 0 .i8 0 1 6 .f32) 1) (lineOf 4 [0x42FF_3333]) = [.flags 0x10] := by decide +kernel
theorem test_vcvt_saturates : written (vector (.vcvt 0 .n16 0 1 6 .i8) 3) (lineOf 1 [0xFF]) = [some 0, some 0, none, none] ∧
    effects (vector (.vcvt 0 .n16 0 1 6 .i8) 3) (lineOf 1 [0xFF]) = [.flags 0x20] := by decide +kernel
theorem test_vcvt_extends : written (vector (.vcvt 0 .i16 0 1 6 .i8) 3) (lineOf 1 [0xFF]) = [some 0xFF, some 0xFF, none, none] := by
  decide +kernel

/-- R328 and R379: the Hilbert position 37 is the cell (7, 4), and twenty pieces make a tree of depth 2. -/
theorem test_hilbert : hilbertXy 37 = (7, 4) := by decide +kernel
theorem test_tree_depth : treeDepth 20 = 2 := by decide +kernel

/-- R61 and R66: the image of the small timetable passes the checks of a load; its code section holds 80 bytes and ENTRY is 0. -/
theorem test_small_image :
    (match parseImage demoBytes with | .ok g => g.code.length == 80 && g.entry == 0 | .error _ => false) = true := by
  decide +kernel

/-- SHA-384 of the text abc, the example of FIPS 180-4 (log entry 16). -/
theorem test_sha384 : sha384 [0x61, 0x62, 0x63] = (leBytes 48
    0xA725C834A1ECBA5823CCE7A12B078680ED5BFF435A608B1A63D1DE0EAB322C270750C69A693DA0B58B5EA3453F7500CB) := by
  decide +kernel

/-- R370: TRAP 5 stops the tile with 0x0C05 and its number as FADDR; R34: an instruction of Lanterns takes 0x0106 on a tile. -/
def cause? (i : Instr) : Option (Nat × Word) :=
  match exec i state1 with
  | .next t => (t.tile? 0).map fun t => (t.cause.code, t.cause.faddr)
  | _ => none
theorem test_trap : cause? (.trap 0 5) = some (0x0C05, 5) := by decide +kernel
theorem test_wrong_core : cause? (.launch 0 (.s 1) (.s 2)) = some (0x0106, 8) := by decide +kernel

/-- R131: a load of a doubleword at address 3, and one past the end of scratchpad. -/
theorem test_load_misaligned : cause? (.ldD 0 (.s 9) (.s 6) 0) = some (0x0302, 3) := by decide +kernel
theorem test_load_outside : cause? (.ldD 0 (.s 9) (.s 5) 0) = some (0x0301, 0x20_0000) := by decide +kernel

/-- R6: the least significant byte lies at the lowest address. -/
theorem test_little_endian : (Mem.empty.write 8 (leBytes 8 0x0102_0304_0506_0708) false).bytes 8 4 = [8, 7, 6, 5] := by
  decide +kernel

end Sys2Proof.Tests
end

section
/-! The fields of a slot word (R33), the class NOPs (R50), and the words of the spec. -/

namespace Sys2Proof.Laws

/-! ## The fields of a slot word -/

/-- The slot word of a stop bit, class, guard, opcode and operand field (R33). -/
def slotWord (stop : Bool) (cls g op opr : Nat) : Nat :=
  stop.toNat * 2147483648 + cls * 268435456 + g * 16777216 + op * 262144 + opr

/-- The encoder writes the slot word of an instruction's fields. -/
theorem encode_eq_slotWord {i : Instr} {cls op g opr : Nat} (h : encodeFields i = some (cls, op, g, opr)) (stop : Bool) :
    encode stop i = some (BitVec.ofNat 32 (slotWord stop cls g op opr)) := by
  simp only [encode, h, slotWord]

section
variable {stop : Bool} {cls g op opr : Nat}

@[simp] theorem slotOpr_slotWord (hr : opr < 2 ^ 18) : slotOpr (slotWord stop cls g op opr) = opr := by
  simp only [slotOpr, slotWord]; omega
@[simp] theorem slotOp_slotWord (ho : op < 64) (hr : opr < 2 ^ 18) : slotOp (slotWord stop cls g op opr) = op := by
  simp only [slotOp, slotWord]; omega
@[simp] theorem slotGuard_slotWord (hg : g < 16) (ho : op < 64) (hr : opr < 2 ^ 18) :
    slotGuard (slotWord stop cls g op opr) = ⟨g, hg⟩ := by
  apply Fin.ext
  simp only [slotGuard, slotWord, Fin.ofNat]
  omega
@[simp] theorem slotClass_slotWord (hc : cls < 8) (hg : g < 16) (ho : op < 64) (hr : opr < 2 ^ 18) :
    slotClass (slotWord stop cls g op opr) = cls := by
  simp only [slotClass, slotWord]; omega
@[simp] theorem slotStop_slotWord (hc : cls < 8) (hg : g < 16) (ho : op < 64) (hr : opr < 2 ^ 18) :
    slotStop (slotWord stop cls g op opr) = stop := by
  have hbit : slotWord stop cls g op opr / 2147483648 = stop.toNat := by simp only [slotWord]; omega
  simp only [slotStop, hbit]
  cases stop <;> rfl

/-- A slot word decodes by its class, opcode, operand field and guard, each as it was written. -/
theorem decodeSlot_slotWord (hc : cls < 8) (hg : g < 16) (ho : op < 64) (hr : opr < 2 ^ 18) :
    decodeSlot (slotWord stop cls g op opr) = wellFormedOr (decodeClass cls op opr ⟨g, hg⟩) := by
  simp only [decodeSlot, slotClass_slotWord hc hg ho hr, slotOp_slotWord ho hr, slotOpr_slotWord hr,
    slotGuard_slotWord hg ho hr]

end

/-! ## The class NOPs (R50) -/

/-- The NOP of a class. -/
def classNop (c : Fin 7) (g : Guard) : Instr :=
  match c with
  | 0 => .nop g
  | 1 => .vnop g
  | 2 => .mnop g
  | 3 => .cnop g
  | 4 => .knop g
  | 5 => .lnop g
  | 6 => .xnop g

@[simp] theorem isNop_classNop (c : Fin 7) (g : Guard) : Machine.isNop (classNop c g) = true := by
  fin_cases c <;> rfl
@[simp] theorem wf_classNop (c : Fin 7) (g : Guard) : (classNop c g).wf = true := by
  fin_cases c <;> rfl
@[simp] theorem encodeFields_classNop (c : Fin 7) (g : Guard) : encodeFields (classNop c g) = some (c.val, 0x00, g.val, 0) := by
  fin_cases c <;> rfl

/-- Opcode 0 of every class is its NOP, whose operand field is unused. -/
theorem decodeClass_zero (c : Fin 7) (opr : Nat) (g : Guard) : decodeClass c.val 0x00 opr g = zeroF opr (classNop c g) := by
  fin_cases c <;> rfl

theorem zeroF_zero (i : Instr) : zeroF 0 i = .ok i := rfl
theorem zeroF_ne_zero {opr : Nat} (h : opr ≠ 0) (i : Instr) : zeroF opr i = .error .badOperand := by
  simp [zeroF, okIf, h]

theorem wellFormedOr_ok {i : Instr} (h : i.wf = true) : wellFormedOr (.ok i) = .ok i := by
  simp only [wellFormedOr, okIf, h, if_true]

section
variable (stop : Bool) (c : Fin 7) (g : Guard)

theorem decodeSlot_opcode_zero {opr : Nat} (h : opr < 2 ^ 18) :
    decodeSlot (slotWord stop c.val g.val 0x00 opr) = wellFormedOr (zeroF opr (classNop c g)) := by
  rw [decodeSlot_slotWord (Nat.lt_succ_of_lt c.isLt) g.isLt (by decide) h, decodeClass_zero]

/-- The word of a class NOP decodes to it, under any guard and stop bit. -/
theorem decodeSlot_classNop : decodeSlot (slotWord stop c.val g.val 0x00 0) = .ok (classNop c g) := by
  rw [decodeSlot_opcode_zero stop c g (by decide), zeroF_zero, wellFormedOr_ok (wf_classNop c g)]

/-- A class NOP with an operand bit takes 0x0104. -/
theorem decodeSlot_classNop_operand {opr : Nat} (h : opr < 2 ^ 18) (hne : opr ≠ 0) :
    decodeSlot (slotWord stop c.val g.val 0x00 opr) = .error .badOperand := by
  rw [decodeSlot_opcode_zero stop c g h, zeroF_ne_zero hne]
  rfl

end

/-! ## Words of the spec -/

/-- Settles O53: the word of a class NOP is a slot word of opcode 0, and each word of the spec reads by computation. -/
theorem wordsDecode : Obligations.WordsDecode := by
  unfold Obligations.WordsDecode
  refine ⟨fun c g stop o ho => ?_, rfl, rfl, rfl, rfl, rfl, rfl, rfl, rfl, rfl, rfl, rfl⟩
  have hword : stop.toNat * 2 ^ 31 + c.val * 2 ^ 28 + g.val * 2 ^ 24 + o = slotWord stop c.val g.val 0x00 o := by
    simp [slotWord]
  rw [hword]
  refine ⟨slotStop_slotWord (Nat.lt_succ_of_lt c.isLt) g.isLt (by decide) ho, ?_, fun hne => ?_⟩
  · rintro rfl
    exact ⟨classNop c g, decodeSlot_classNop stop c g, isNop_classNop c g, encodeFields_classNop c g⟩
  · exact ⟨.badOperand, decodeSlot_classNop_operand stop c g ho hne, rfl⟩

end Sys2Proof.Laws
end

section
/-! What lands in the scalar registers (R92 to R94), and the compares and PLOG, which land a predicate pair (R120, R121). -/

namespace Sys2Proof.Machine

/-! ## The conditions of R120 and R121 -/

theorem condHolds_iff (cc : Cond) (x y : Word) : condHolds cc x y = true ↔ comparison cc x y := by
  cases cc with
  | eq => simp [condHolds, comparison, BitVec.toNat_inj]
  | ne => simp [condHolds, comparison, BitVec.toNat_inj]
  | lt => simp [condHolds, comparison, BitVec.slt]
  | ge => simp [condHolds, comparison, BitVec.slt]
  | ltu => simp [condHolds, comparison, BitVec.ult]
  | geu => simp [condHolds, comparison, BitVec.ult]

theorem plogHolds_iff (op : PlogOp) (x y : Bool) :
    plogHolds op x y = true ↔ predicateLogic op (x = true) (y = true) := by
  cases op with
  | and => simp [plogHolds, predicateLogic]
  | or => simp [plogHolds, predicateLogic]
  | xor => simp [plogHolds, predicateLogic]
  | andn => simp [plogHolds, predicateLogic]

/-- The immediate of CMPI is sign-extended (R46, R120). -/
theorem sx6_eq_ofInt (n : BitVec 6) : sx6 n = BitVec.ofInt 64 n.toInt := rfl

/-! ## The slots that land a predicate pair -/

section
variable {g : Guard} {k : Fin 8} {s : State} {c : Core}

theorem cmp_completes {cc : Cond} {a b : SOp} (h : Issues s c g [a, b] []) :
    let x := s.operand c 0 a
    let y := s.operand c 1 b
    Completes (.cmp g k cc a b) s
      (s.lands (s.env.ctl + 1) [(1, .pair k ⟨condHolds cc x.val y.val, x.taint || y.taint, x.poison || y.poison⟩)]) := by
  refine h.completes (u := useS (.cmp g k cc a b) (some g) [a, b] []) rfl rfl rfl rfl rfl fun ρ => ⟨_, rfl, ?_⟩
  rw [State.landPair_untaped]
  simp only [useS, List.map_cons, List.map_nil, operand_zero, operand_one, marksOf_two]

theorem cmpi_completes {cc : Cond} {a : SOp} {n : BitVec 6} (h : Issues s c g [a] []) :
    let x := s.operand c 0 a
    Completes (.cmpi g k cc a n) s
      (s.lands (s.env.ctl + 1) [(1, .pair k ⟨condHolds cc x.val (BitVec.ofInt 64 n.toInt), x.taint, x.poison⟩)]) := by
  refine h.completes (u := useS (.cmpi g k cc a n) (some g) [a] []) rfl rfl rfl rfl rfl fun ρ => ⟨_, rfl, ?_⟩
  rw [State.landPair_untaped]
  simp only [useS, List.map_cons, List.map_nil, operand_zero, marksOf_one, sx6_eq_ofInt]

theorem plog_completes {op : PlogOp} {m n : Fin 16} (h : Issues s c g [] []) :
    let p := c.readQ m
    let r := c.readQ n
    Completes (.plog g k op m n) s
      (s.lands (s.env.ctl + 1) [(1, .pair k ⟨plogHolds op p.val r.val, p.taint || r.taint, p.poison || r.poison⟩)]) := by
  refine h.completes (u := useS (.plog g k op m n) (some g) [] []) rfl rfl rfl rfl rfl fun ρ => ?_
  rw [State.core_entered h.core]
  exact ⟨_, rfl, State.landPair_untaped ..⟩

end

/-! ## Registers after a landing -/

theorem vector_get_set {α : Type} {n : Nat} (xs : Vector α n) (i j : Fin n) (v : α) :
    (xs.set i v).get j = if j = i then v else xs.get j := by
  simp only [Vector.get_eq_getElem, Vector.getElem_set, Fin.ext_iff, eq_comm]

theorem Core.writeS_s_of_ne (c : Core) {n : Fin 48} (h : n ≠ 0) (v : SReg) :
    c.writeS (.s n) v = { c with s := c.s.set n v } := if_neg h

/-- R92: l and the o file take every write, the s file every one but that of s0. -/
theorem Core.readS_writeS (c : Core) (d : SOp) (v : SReg) (e : SOp) :
    (c.writeS d v).readS e = if e = d ∧ d ≠ .s 0 then v else c.readS e := by
  cases d with
  | l => cases e <;> simp [Core.writeS, Core.readS]
  | o n => cases e <;> simp [Core.writeS, Core.readS, vector_get_set]
  | s n =>
    by_cases hn : n = 0
    · subst hn
      exact (if_neg fun h => h.2 rfl).symm
    · rw [c.writeS_s_of_ne hn]
      cases e with
      | l => simp [Core.readS]
      | o m => simp [Core.readS]
      | s m =>
        by_cases hm : m = n
        · subst hm
          simp [Core.readS, vector_get_set, hn]
        · simp [Core.readS, vector_get_set, hm]

/-- A write of an S operand changes the register files of s, o and l alone. -/
theorem Core.writeS_frame (c : Core) (d : SOp) (v : SReg) : (c.writeS d v).q = c.q ∧ (c.writeS d v).b = c.b := by
  cases d with
  | l => exact ⟨rfl, rfl⟩
  | o n => exact ⟨rfl, rfl⟩
  | s n =>
    by_cases hn : n = 0
    · subst hn
      exact ⟨rfl, rfl⟩
    · rw [c.writeS_s_of_ne hn]
      exact ⟨rfl, rfl⟩

theorem Core.writePair_of_ne (c : Core) {k : Fin 8} (h : k ≠ 0) (v : QReg) :
    c.writePair k v = { c with q := (c.q.set (evenOf k) v).set (oddOf k) { v with val := !v.val } } := if_neg h

theorem eq_evenOf_iff (n : Fin 16) (k : Fin 8) : n = evenOf k ↔ n.val / 2 = k.val ∧ n.val % 2 = 0 := by
  simp only [Fin.ext_iff, evenOf]; omega
theorem eq_oddOf_iff (n : Fin 16) (k : Fin 8) : n = oddOf k ↔ n.val / 2 = k.val ∧ n.val % 2 = 1 := by
  simp only [Fin.ext_iff, oddOf]; omega

/-- The predicates after both members of pair k are set, q0 and q1 not yet apart (R94). -/
theorem get_set_pair (q : Vector QReg 16) (k : Fin 8) (v : QReg) (n : Fin 16) :
    ((q.set (evenOf k) v).set (oddOf k) { v with val := !v.val }).get n =
      if n.val / 2 = k.val then ⟨v.val ^^ decide (n.val % 2 = 1), v.taint, v.poison⟩ else q.get n := by
  simp only [vector_get_set, eq_evenOf_iff, eq_oddOf_iff]
  by_cases hk : n.val / 2 = k.val
  · obtain hn | hn := Nat.mod_two_eq_zero_or_one n.val <;> simp [hk, hn]
  · simp [hk]

theorem Core.readQ_of_two_le (c : Core) {n : Fin 16} (h : 2 ≤ n.val) : c.readQ n = c.q.get n := by
  have h0 : n ≠ 0 := by rintro rfl; exact absurd h (by decide)
  have h1 : n ≠ 1 := by rintro rfl; exact absurd h (by decide)
  rw [Core.readQ, if_neg h0, if_neg h1]

/-- q0 and q1 read the same in every core (R92). -/
theorem Core.readQ_of_lt_two (c c' : Core) {n : Fin 16} (h : n.val < 2) : c.readQ n = c'.readQ n := by
  obtain rfl | rfl : n = 0 ∨ n = 1 := by simp only [Fin.ext_iff]; show n.val = 0 ∨ n.val = 1; omega
  · rfl
  · rfl

/-- R94: the even register receives the condition and the odd register its complement; q0 and q1 keep their values. -/
theorem Core.readQ_writePair (c : Core) (k : Fin 8) (v : QReg) (n : Fin 16) :
    (c.writePair k v).readQ n =
      if n.val / 2 = k.val ∧ 2 ≤ n.val then ⟨v.val ^^ decide (n.val % 2 = 1), v.taint, v.poison⟩ else c.readQ n := by
  by_cases hn : 2 ≤ n.val
  · by_cases hk : k = 0
    · subst hk
      refine (if_neg fun h => ?_).symm
      have hlow : n.val / 2 = 0 := h.1
      omega
    · simp only [Core.readQ_of_two_le _ hn, c.writePair_of_ne hk, get_set_pair, hn, and_true]
  · rw [if_neg fun h => hn h.2]
    exact Core.readQ_of_lt_two _ _ (by omega)

/-- A write of a pair changes the predicates alone. -/
theorem Core.writePair_frame (c : Core) (k : Fin 8) (v : QReg) (e : SOp) :
    (c.writePair k v).readS e = c.readS e ∧ (c.writePair k v).b = c.b := by
  by_cases hk : k = 0
  · subst hk
    exact ⟨rfl, rfl⟩
  · rw [c.writePair_of_ne hk]
    exact ⟨rfl, rfl⟩

theorem Core.q_apply (c : Core) (eff : Effect) : (∃ k v, eff = .pair k v) ∨ (c.apply eff).q = c.q := by
  cases eff with
  | pair k v => exact .inl ⟨k, v, rfl⟩
  | reg d v => exact .inr (c.writeS_frame d v).1
  | _ => exact .inr rfl

/-- The pair that a compare or PLOG may name: one from 1 to 7 (R94). -/
theorem pair_ne_zero_iff (k : Fin 8) : (k != 0) = true ↔ 1 ≤ k.val := by
  rw [bne_iff_ne, ← Fin.val_ne_zero_iff, Nat.one_le_iff_ne_zero]

theorem wf_iff_of_landsPair (g : Guard) (k : Fin 8) :
    ∀ i ∈ [Instr.cmp g k .eq .l .l, .cmpi g k .eq .l 0, .plog g k .and 0 0], i.wf = true ↔ 1 ≤ k.val := by
  intro i hi
  simp only [List.mem_cons, List.not_mem_nil, or_false] at hi
  obtain rfl | rfl | rfl := hi <;> exact pair_ne_zero_iff k

theorem Core.get_apply_breg (c : Core) (n : Fin 4) (v : BitVec 32) (m : Fin 4) :
    (c.apply (.breg n v)).b.get m = if m = n then v else c.b.get m :=
  vector_get_set ..

end Sys2Proof.Machine

namespace Sys2Proof.Laws
open Sys2Proof.Machine

/-- Settles O39: a compare and a PLOG complete with the landing of their pair, and each landing of a core writes its own
register. -/
theorem registersLand : Obligations.RegistersLand := by
  unfold Obligations.RegistersLand
  refine ⟨fun g k s c => ⟨?_, ?_, ?_, wf_iff_of_landsPair g k⟩, fun c =>
    ⟨c.q_apply, c.readS_writeS, c.writeS_frame, c.readQ_writePair, c.writePair_frame, c.get_apply_breg, ?_⟩⟩
  · exact fun cc a b h => ⟨_, condHolds_iff .., cmp_completes h⟩
  · exact fun cc a n h => ⟨_, condHolds_iff .., cmpi_completes h⟩
  · exact fun op m n h => ⟨_, plogHolds_iff .., plog_completes h⟩
  · exact fun n v e m => ⟨rfl, rfl⟩

end Sys2Proof.Laws
end
